-- ==== Sys2Proof/Word.lean ====
section
/-!
DEFINITION. The two word types of the machine: the byte and the address (00_scope.md R5: data width 8 bits,
address width 16 bits). Everything that computes on them stands in mendable files (Machine/Address.lean,
Machine/Flags.lean).
-/

namespace Sys2Proof

/-- The 8-bit data word: register contents, memory bytes, operand bytes (R5). -/
abbrev Byte := BitVec 8

/-- The 16-bit address, and the program counter's type (R5, R30). -/
abbrev Addr := BitVec 16

end Sys2Proof
end

