-- ==== Sys2Proof/Config.lean ====
section
/-!
DEFINITION. The parameters of 00_scope.md R6: the fixed ones as named constants, the open launch values as one
structure with the default the spec names (R29: "takes 0 for each"). The spec leaves no instruction's result open,
so there is no free value here.
-/

namespace Sys2Proof

/-- `N_OPCODES` (R6, R55): how many opcode values are defined. -/
abbrev Config.nOpcodes : Nat := 151

/-- `STACK_PAGE` (R6, R15): the high byte of every stack address. -/
abbrev Config.stackPage : Byte := 0x01

/-- `BRK_VECTOR` (R6, R182): where the low byte of the BRK vector lies; the high byte follows it. -/
abbrev Config.brkVector : Addr := 0xFFFE

/-- `JMP_INDIRECT_PAGE_WRAP` (R6, R89): false, the pointer of `JMP (ind)` is read with a clean 16-bit increment. -/
abbrev Config.jmpIndirectPageWrap : Bool := false

/-- `ZP_POINTER_WRAP` (R6, R98): true, both bytes of a zero-page pointer lie in page 0. -/
abbrev Config.zpPointerWrap : Bool := true

/-- `STALL_MAX` (R6, R25): the largest value the stall counter holds between ticks. -/
abbrev Config.stallMax : Nat := 6

/-- `INIT_STALL` (R6, R29): the engine starts Ready. -/
abbrev Config.initStall : Nat := 0

/-- What an address reads as that nothing has written or seeded (20_memory.md R33: "returns 0 for addresses never
written"). -/
abbrev Config.unlistedByte : Byte := 0x00

/-- The launch parameters `INIT_PC` to `INIT_C` and `INIT_MEM` (R6, R29, R220). The spec leaves every one open; the
defaults are the ones R29 gives to "a simulator that needs concrete defaults". DESIGN CHOICE, log entries 1, 2
and 3, unsafe: a real core may hold any values after power-on. `image` is the list of bytes a loader seeds. -/
structure LaunchParams where
  initPC : Addr := 0
  initAC : Byte := 0
  initX  : Byte := 0
  initY  : Byte := 0
  initSP : Byte := 0
  initN  : Bool := false
  initV  : Bool := false
  initB  : Bool := false
  initD  : Bool := false
  initI  : Bool := false
  initZ  : Bool := false
  initC  : Bool := false
  image  : List (Addr × Byte) := []
  deriving DecidableEq, Repr

end Sys2Proof
end

