-- ==== Sys2Proof/Machine/Address.lean ====
section
/-!
DEFINITION. Address algebra (20_memory.md R35, R36, R47; notation 00_scope.md R7): the byte and address helpers
every other file uses. All of them are pure and total.
-/

namespace Sys2Proof.Machine

/-- `hi(a) = a[15:8]` (R7). -/
def hi (a : Addr) : Byte := a.extractLsb' 8 8

/-- `lo(a) = a[7:0]` (R7). -/
def lo (a : Addr) : Byte := a.extractLsb' 0 8

/-- `fromBytes(high, low)` (R35): the first argument is the high byte; `{h, l} = h * 256 + l`. -/
def fromBytes (high low : Byte) : Addr := high ++ low

/-- `zext_16(b)` (R7): a byte widened with zeros on the left, the address `{0x00, b}` of page 0. -/
def zeroPage (b : Byte) : Addr := b.zeroExtend 16

/-- `withOffset(base, off) = base +16 sext_16(off)` (R36). -/
def withOffset (base : Addr) (off : Byte) : Addr := base + off.signExtend 16

/-- `{STACK_PAGE, sp}` (R15): the address the stack pointer stands for. -/
def stackAddr (sp : Byte) : Addr := fromBytes Config.stackPage sp

/-- Where the high byte of the pointer of `JMP (ind)` at `p` is read: `p +16 1` (R89, D12). The page-wrapped address
is the erratum that `JMP_INDIRECT_PAGE_WRAP = false` leaves out. -/
def indirectHigh (p : Addr) : Addr :=
  if Config.jmpIndirectPageWrap then fromBytes (hi p) (lo p + 1) else p + 1

/-- Where the high byte of the zero-page pointer at `z` is read: `{0x00, z +8 1}` (R98, D13), by
`ZP_POINTER_WRAP = true`. -/
def zeroPageHigh (z : Byte) : Addr :=
  if Config.zpPointerWrap then zeroPage (z + 1) else zeroPage z + 1

end Sys2Proof.Machine
end

