-- ==== Sys2Proof/Syntax/Forms.lean ====
section
/-!
DEFINITION. The parts an instruction is made of: the 56 mnemonics, the 13 addressing modes and their operands
(30_encoding.md R51), the record `decode` returns (R54), and the raw Operation the host may hand to the core
(40_engine_and_addressing.md R77).
-/

namespace Sys2Proof

/-- The 56 mnemonics (30_encoding.md R55). -/
inductive Mnemonic where
  -- loads, stores and transfers
  | lda | ldx | ldy | sta | stx | sty | tax | tay | tsx | txa | txs | tya
  -- arithmetic, compares, increments
  | adc | sbc | cmp | cpx | cpy | inc | inx | iny | dec | dex | dey
  -- logic, bit test, shifts
  | and | ora | eor | bit | asl | lsr | rol | ror
  -- branches, jumps, subroutines
  | bcc | bcs | beq | bmi | bne | bpl | bvc | bvs | jmp | jsr | rts
  -- stack, flags, system
  | pha | php | pla | plp | clc | sec | cli | sei | cld | sed | clv | nop | brk | rti
  deriving DecidableEq, Repr

/-- The thirteen addressing modes (R51; tags of 00_scope.md R8). -/
inductive Mode where
  | imp | acc | imm | zp | zpx | zpy | abs | abx | aby | ind | izx | izy | rel
  deriving DecidableEq, Repr

/-- The operand of a mode whose location is a memory address (`Mem(a)` in 40_engine_and_addressing.md R79), with its
operand bytes assembled (R53): `zp` to `rel` carry `b1`, the 16-bit forms carry `fromBytes(b2, b1)`. -/
inductive MemOperand where
  | zp (b : Byte) | zpx (b : Byte) | zpy (b : Byte)
  | abs (a : Addr) | abx (a : Addr) | aby (a : Addr) | ind (p : Addr)
  | izx (b : Byte) | izy (b : Byte) | rel (off : Byte)
  deriving DecidableEq, Repr

/-- The operand of an instruction: the four location cases of R79 before resolution. -/
inductive Operand where
  | imp                    -- `None`
  | acc                    -- `Reg(AC)`
  | imm (b : Byte)         -- `Imm(b)`
  | mem (m : MemOperand)   -- `Mem(a)`
  deriving DecidableEq, Repr

/-- The cost part of the decoder's record (R54): the cycles before the conditional penalties and the two bits that
say which penalties apply (R62). -/
structure Timing where
  cycles : Nat
  pageSensitive : Bool := false
  branchSensitive : Bool := false
  deriving DecidableEq, Repr

/-- One row of the opcode table (R54, R55). -/
structure OpRecord where
  opcode : Byte
  mnemonic : Mnemonic
  mode : Mode
  timing : Timing
  deriving DecidableEq, Repr

/-- A fetched instruction, "opcode + up to two operand bytes" (R50, R77); a byte the size does not call for is 0x00, as
R71 sets it. -/
structure Operation where
  opcode : Byte
  b1 : Byte := 0x00
  b2 : Byte := 0x00
  deriving DecidableEq, Repr

/-- Why the decoder refuses a list of bytes: the opcode is one of the 105 undefined values (R57), or fewer bytes are
there than the size calls for (this never happens in a fetch, where every address reads). -/
inductive DecodeError where
  | unknownOpcode (opcode : Byte)
  | truncated
  deriving DecidableEq, Repr

end Sys2Proof
end

