-- ==== Sys2Proof/Syntax.lean ====
section
/-!
DEFINITION. The syntax of the instruction set: the 151 instructions.
-/

namespace Sys2Proof

/-- The 151 instructions, one constructor per row of spec/opcode_table.json (30_encoding.md R55), named mnemonic then
mode where the mnemonic has several. -/
inductive Instr where
  -- loads, stores and transfers
  | ldaImm (b : Byte) | ldaZp (b : Byte) | ldaZpx (b : Byte) | ldaAbs (a : Addr) | ldaAbx (a : Addr)
  | ldaAby (a : Addr) | ldaIzx (b : Byte) | ldaIzy (b : Byte)
  | ldxImm (b : Byte) | ldxZp (b : Byte) | ldxZpy (b : Byte) | ldxAbs (a : Addr) | ldxAby (a : Addr)
  | ldyImm (b : Byte) | ldyZp (b : Byte) | ldyZpx (b : Byte) | ldyAbs (a : Addr) | ldyAbx (a : Addr)
  | staZp (b : Byte) | staZpx (b : Byte) | staAbs (a : Addr) | staAbx (a : Addr) | staAby (a : Addr)
  | staIzx (b : Byte) | staIzy (b : Byte)
  | stxZp (b : Byte) | stxZpy (b : Byte) | stxAbs (a : Addr)
  | styZp (b : Byte) | styZpx (b : Byte) | styAbs (a : Addr)
  | tax
  | tay
  | tsx
  | txa
  | txs
  | tya
  -- arithmetic, compares, increments
  | adcImm (b : Byte) | adcZp (b : Byte) | adcZpx (b : Byte) | adcAbs (a : Addr) | adcAbx (a : Addr)
  | adcAby (a : Addr) | adcIzx (b : Byte) | adcIzy (b : Byte)
  | sbcImm (b : Byte) | sbcZp (b : Byte) | sbcZpx (b : Byte) | sbcAbs (a : Addr) | sbcAbx (a : Addr)
  | sbcAby (a : Addr) | sbcIzx (b : Byte) | sbcIzy (b : Byte)
  | cmpImm (b : Byte) | cmpZp (b : Byte) | cmpZpx (b : Byte) | cmpAbs (a : Addr) | cmpAbx (a : Addr)
  | cmpAby (a : Addr) | cmpIzx (b : Byte) | cmpIzy (b : Byte)
  | cpxImm (b : Byte) | cpxZp (b : Byte) | cpxAbs (a : Addr)
  | cpyImm (b : Byte) | cpyZp (b : Byte) | cpyAbs (a : Addr)
  | incZp (b : Byte) | incZpx (b : Byte) | incAbs (a : Addr) | incAbx (a : Addr)
  | inx
  | iny
  | decZp (b : Byte) | decZpx (b : Byte) | decAbs (a : Addr) | decAbx (a : Addr)
  | dex
  | dey
  -- logic, bit test, shifts
  | andImm (b : Byte) | andZp (b : Byte) | andZpx (b : Byte) | andAbs (a : Addr) | andAbx (a : Addr)
  | andAby (a : Addr) | andIzx (b : Byte) | andIzy (b : Byte)
  | oraImm (b : Byte) | oraZp (b : Byte) | oraZpx (b : Byte) | oraAbs (a : Addr) | oraAbx (a : Addr)
  | oraAby (a : Addr) | oraIzx (b : Byte) | oraIzy (b : Byte)
  | eorImm (b : Byte) | eorZp (b : Byte) | eorZpx (b : Byte) | eorAbs (a : Addr) | eorAbx (a : Addr)
  | eorAby (a : Addr) | eorIzx (b : Byte) | eorIzy (b : Byte)
  | bitZp (b : Byte) | bitAbs (a : Addr)
  | aslAcc | aslZp (b : Byte) | aslZpx (b : Byte) | aslAbs (a : Addr) | aslAbx (a : Addr)
  | lsrAcc | lsrZp (b : Byte) | lsrZpx (b : Byte) | lsrAbs (a : Addr) | lsrAbx (a : Addr)
  | rolAcc | rolZp (b : Byte) | rolZpx (b : Byte) | rolAbs (a : Addr) | rolAbx (a : Addr)
  | rorAcc | rorZp (b : Byte) | rorZpx (b : Byte) | rorAbs (a : Addr) | rorAbx (a : Addr)
  -- branches, jumps, subroutines
  | bcc (off : Byte)
  | bcs (off : Byte)
  | beq (off : Byte)
  | bmi (off : Byte)
  | bne (off : Byte)
  | bpl (off : Byte)
  | bvc (off : Byte)
  | bvs (off : Byte)
  | jmpAbs (a : Addr) | jmpInd (p : Addr)
  | jsr (a : Addr)
  | rts
  -- stack, flags, system
  | pha
  | php
  | pla
  | plp
  | clc
  | sec
  | cli
  | sei
  | cld
  | sed
  | clv
  | nop
  | brk
  | rti
  deriving DecidableEq, Repr

end Sys2Proof
end

