-- ==== Sys2Proof/Decode.lean ====
section
/-!
DEFINITION. The opcode decoder (30_encoding.md): sizes (R52), the opcode table (R55), the record `decode` returns
(R54), the instruction an opcode byte and its operand bytes stand for (R53), the mode classification by bit pattern
(R56, informative), and after them the encoder, written from the same tables.
-/

namespace Sys2Proof

/-- Size in bytes, a function of the mode alone (R52). -/
def Mode.size : Mode → Nat
  | .imp | .acc => 1
  | .imm | .zp | .zpx | .zpy | .izx | .izy | .rel => 2
  | .abs | .abx | .aby | .ind => 3

def MemOperand.mode : MemOperand → Mode
  | .zp _ => .zp | .zpx _ => .zpx | .zpy _ => .zpy
  | .abs _ => .abs | .abx _ => .abx | .aby _ => .aby | .ind _ => .ind
  | .izx _ => .izx | .izy _ => .izy | .rel _ => .rel

def Operand.mode : Operand → Mode
  | .imp => .imp
  | .acc => .acc
  | .imm _ => .imm
  | .mem m => m.mode

/-- The rows of R55 for loads, stores and transfers. -/
def loadStoreRows : List OpRecord := [
  ⟨0xA9, .lda, .imm, { cycles := 2 }⟩,
  ⟨0xA5, .lda, .zp, { cycles := 3 }⟩,
  ⟨0xB5, .lda, .zpx, { cycles := 4 }⟩,
  ⟨0xAD, .lda, .abs, { cycles := 4 }⟩,
  ⟨0xBD, .lda, .abx, { cycles := 4, pageSensitive := true }⟩,
  ⟨0xB9, .lda, .aby, { cycles := 4, pageSensitive := true }⟩,
  ⟨0xA1, .lda, .izx, { cycles := 6 }⟩,
  ⟨0xB1, .lda, .izy, { cycles := 5, pageSensitive := true }⟩,
  ⟨0xA2, .ldx, .imm, { cycles := 2 }⟩,
  ⟨0xA6, .ldx, .zp, { cycles := 3 }⟩,
  ⟨0xB6, .ldx, .zpy, { cycles := 4 }⟩,
  ⟨0xAE, .ldx, .abs, { cycles := 4 }⟩,
  ⟨0xBE, .ldx, .aby, { cycles := 4, pageSensitive := true }⟩,
  ⟨0xA0, .ldy, .imm, { cycles := 2 }⟩,
  ⟨0xA4, .ldy, .zp, { cycles := 3 }⟩,
  ⟨0xB4, .ldy, .zpx, { cycles := 4 }⟩,
  ⟨0xAC, .ldy, .abs, { cycles := 4 }⟩,
  ⟨0xBC, .ldy, .abx, { cycles := 4, pageSensitive := true }⟩,
  ⟨0x85, .sta, .zp, { cycles := 3 }⟩,
  ⟨0x95, .sta, .zpx, { cycles := 4 }⟩,
  ⟨0x8D, .sta, .abs, { cycles := 4 }⟩,
  ⟨0x9D, .sta, .abx, { cycles := 5 }⟩,
  ⟨0x99, .sta, .aby, { cycles := 5 }⟩,
  ⟨0x81, .sta, .izx, { cycles := 6 }⟩,
  ⟨0x91, .sta, .izy, { cycles := 6 }⟩,
  ⟨0x86, .stx, .zp, { cycles := 3 }⟩,
  ⟨0x96, .stx, .zpy, { cycles := 4 }⟩,
  ⟨0x8E, .stx, .abs, { cycles := 4 }⟩,
  ⟨0x84, .sty, .zp, { cycles := 3 }⟩,
  ⟨0x94, .sty, .zpx, { cycles := 4 }⟩,
  ⟨0x8C, .sty, .abs, { cycles := 4 }⟩,
  ⟨0xAA, .tax, .imp, { cycles := 2 }⟩,
  ⟨0xA8, .tay, .imp, { cycles := 2 }⟩,
  ⟨0xBA, .tsx, .imp, { cycles := 2 }⟩,
  ⟨0x8A, .txa, .imp, { cycles := 2 }⟩,
  ⟨0x9A, .txs, .imp, { cycles := 2 }⟩,
  ⟨0x98, .tya, .imp, { cycles := 2 }⟩]

/-- The rows of R55 for arithmetic, compares, increments. -/
def arithmeticRows : List OpRecord := [
  ⟨0x69, .adc, .imm, { cycles := 2 }⟩,
  ⟨0x65, .adc, .zp, { cycles := 3 }⟩,
  ⟨0x75, .adc, .zpx, { cycles := 4 }⟩,
  ⟨0x6D, .adc, .abs, { cycles := 4 }⟩,
  ⟨0x7D, .adc, .abx, { cycles := 4, pageSensitive := true }⟩,
  ⟨0x79, .adc, .aby, { cycles := 4, pageSensitive := true }⟩,
  ⟨0x61, .adc, .izx, { cycles := 6 }⟩,
  ⟨0x71, .adc, .izy, { cycles := 5, pageSensitive := true }⟩,
  ⟨0xE9, .sbc, .imm, { cycles := 2 }⟩,
  ⟨0xE5, .sbc, .zp, { cycles := 3 }⟩,
  ⟨0xF5, .sbc, .zpx, { cycles := 4 }⟩,
  ⟨0xED, .sbc, .abs, { cycles := 4 }⟩,
  ⟨0xFD, .sbc, .abx, { cycles := 4, pageSensitive := true }⟩,
  ⟨0xF9, .sbc, .aby, { cycles := 4, pageSensitive := true }⟩,
  ⟨0xE1, .sbc, .izx, { cycles := 6 }⟩,
  ⟨0xF1, .sbc, .izy, { cycles := 5, pageSensitive := true }⟩,
  ⟨0xC9, .cmp, .imm, { cycles := 2 }⟩,
  ⟨0xC5, .cmp, .zp, { cycles := 3 }⟩,
  ⟨0xD5, .cmp, .zpx, { cycles := 4 }⟩,
  ⟨0xCD, .cmp, .abs, { cycles := 4 }⟩,
  ⟨0xDD, .cmp, .abx, { cycles := 4, pageSensitive := true }⟩,
  ⟨0xD9, .cmp, .aby, { cycles := 4, pageSensitive := true }⟩,
  ⟨0xC1, .cmp, .izx, { cycles := 6 }⟩,
  ⟨0xD1, .cmp, .izy, { cycles := 5, pageSensitive := true }⟩,
  ⟨0xE0, .cpx, .imm, { cycles := 2 }⟩,
  ⟨0xE4, .cpx, .zp, { cycles := 3 }⟩,
  ⟨0xEC, .cpx, .abs, { cycles := 4 }⟩,
  ⟨0xC0, .cpy, .imm, { cycles := 2 }⟩,
  ⟨0xC4, .cpy, .zp, { cycles := 3 }⟩,
  ⟨0xCC, .cpy, .abs, { cycles := 4 }⟩,
  ⟨0xE6, .inc, .zp, { cycles := 5 }⟩,
  ⟨0xF6, .inc, .zpx, { cycles := 6 }⟩,
  ⟨0xEE, .inc, .abs, { cycles := 6 }⟩,
  ⟨0xFE, .inc, .abx, { cycles := 7 }⟩,
  ⟨0xE8, .inx, .imp, { cycles := 2 }⟩,
  ⟨0xC8, .iny, .imp, { cycles := 2 }⟩,
  ⟨0xC6, .dec, .zp, { cycles := 5 }⟩,
  ⟨0xD6, .dec, .zpx, { cycles := 6 }⟩,
  ⟨0xCE, .dec, .abs, { cycles := 6 }⟩,
  ⟨0xDE, .dec, .abx, { cycles := 7 }⟩,
  ⟨0xCA, .dex, .imp, { cycles := 2 }⟩,
  ⟨0x88, .dey, .imp, { cycles := 2 }⟩]

/-- The rows of R55 for logic, bit test, shifts. -/
def logicRows : List OpRecord := [
  ⟨0x29, .and, .imm, { cycles := 2 }⟩,
  ⟨0x25, .and, .zp, { cycles := 3 }⟩,
  ⟨0x35, .and, .zpx, { cycles := 4 }⟩,
  ⟨0x2D, .and, .abs, { cycles := 4 }⟩,
  ⟨0x3D, .and, .abx, { cycles := 4, pageSensitive := true }⟩,
  ⟨0x39, .and, .aby, { cycles := 4, pageSensitive := true }⟩,
  ⟨0x21, .and, .izx, { cycles := 6 }⟩,
  ⟨0x31, .and, .izy, { cycles := 5, pageSensitive := true }⟩,
  ⟨0x09, .ora, .imm, { cycles := 2 }⟩,
  ⟨0x05, .ora, .zp, { cycles := 3 }⟩,
  ⟨0x15, .ora, .zpx, { cycles := 4 }⟩,
  ⟨0x0D, .ora, .abs, { cycles := 4 }⟩,
  ⟨0x1D, .ora, .abx, { cycles := 4, pageSensitive := true }⟩,
  ⟨0x19, .ora, .aby, { cycles := 4, pageSensitive := true }⟩,
  ⟨0x01, .ora, .izx, { cycles := 6 }⟩,
  ⟨0x11, .ora, .izy, { cycles := 5, pageSensitive := true }⟩,
  ⟨0x49, .eor, .imm, { cycles := 2 }⟩,
  ⟨0x45, .eor, .zp, { cycles := 3 }⟩,
  ⟨0x55, .eor, .zpx, { cycles := 4 }⟩,
  ⟨0x4D, .eor, .abs, { cycles := 4 }⟩,
  ⟨0x5D, .eor, .abx, { cycles := 4, pageSensitive := true }⟩,
  ⟨0x59, .eor, .aby, { cycles := 4, pageSensitive := true }⟩,
  ⟨0x41, .eor, .izx, { cycles := 6 }⟩,
  ⟨0x51, .eor, .izy, { cycles := 5, pageSensitive := true }⟩,
  ⟨0x24, .bit, .zp, { cycles := 3 }⟩,
  ⟨0x2C, .bit, .abs, { cycles := 4 }⟩,
  ⟨0x0A, .asl, .acc, { cycles := 2 }⟩,
  ⟨0x06, .asl, .zp, { cycles := 5 }⟩,
  ⟨0x16, .asl, .zpx, { cycles := 6 }⟩,
  ⟨0x0E, .asl, .abs, { cycles := 6 }⟩,
  ⟨0x1E, .asl, .abx, { cycles := 7 }⟩,
  ⟨0x4A, .lsr, .acc, { cycles := 2 }⟩,
  ⟨0x46, .lsr, .zp, { cycles := 5 }⟩,
  ⟨0x56, .lsr, .zpx, { cycles := 6 }⟩,
  ⟨0x4E, .lsr, .abs, { cycles := 6 }⟩,
  ⟨0x5E, .lsr, .abx, { cycles := 7 }⟩,
  ⟨0x2A, .rol, .acc, { cycles := 2 }⟩,
  ⟨0x26, .rol, .zp, { cycles := 5 }⟩,
  ⟨0x36, .rol, .zpx, { cycles := 6 }⟩,
  ⟨0x2E, .rol, .abs, { cycles := 6 }⟩,
  ⟨0x3E, .rol, .abx, { cycles := 7 }⟩,
  ⟨0x6A, .ror, .acc, { cycles := 2 }⟩,
  ⟨0x66, .ror, .zp, { cycles := 5 }⟩,
  ⟨0x76, .ror, .zpx, { cycles := 6 }⟩,
  ⟨0x6E, .ror, .abs, { cycles := 6 }⟩,
  ⟨0x7E, .ror, .abx, { cycles := 7 }⟩]

/-- The rows of R55 for branches, jumps, subroutines. -/
def branchRows : List OpRecord := [
  ⟨0x90, .bcc, .rel, { cycles := 2, branchSensitive := true }⟩,
  ⟨0xB0, .bcs, .rel, { cycles := 2, branchSensitive := true }⟩,
  ⟨0xF0, .beq, .rel, { cycles := 2, branchSensitive := true }⟩,
  ⟨0x30, .bmi, .rel, { cycles := 2, branchSensitive := true }⟩,
  ⟨0xD0, .bne, .rel, { cycles := 2, branchSensitive := true }⟩,
  ⟨0x10, .bpl, .rel, { cycles := 2, branchSensitive := true }⟩,
  ⟨0x50, .bvc, .rel, { cycles := 2, branchSensitive := true }⟩,
  ⟨0x70, .bvs, .rel, { cycles := 2, branchSensitive := true }⟩,
  ⟨0x4C, .jmp, .abs, { cycles := 3 }⟩,
  ⟨0x6C, .jmp, .ind, { cycles := 5 }⟩,
  ⟨0x20, .jsr, .abs, { cycles := 6 }⟩,
  ⟨0x60, .rts, .imp, { cycles := 6 }⟩]

/-- The rows of R55 for stack, flags, system. -/
def systemRows : List OpRecord := [
  ⟨0x48, .pha, .imp, { cycles := 3 }⟩,
  ⟨0x08, .php, .imp, { cycles := 3 }⟩,
  ⟨0x68, .pla, .imp, { cycles := 4 }⟩,
  ⟨0x28, .plp, .imp, { cycles := 4 }⟩,
  ⟨0x18, .clc, .imp, { cycles := 2 }⟩,
  ⟨0x38, .sec, .imp, { cycles := 2 }⟩,
  ⟨0x58, .cli, .imp, { cycles := 2 }⟩,
  ⟨0x78, .sei, .imp, { cycles := 2 }⟩,
  ⟨0xD8, .cld, .imp, { cycles := 2 }⟩,
  ⟨0xF8, .sed, .imp, { cycles := 2 }⟩,
  ⟨0xB8, .clv, .imp, { cycles := 2 }⟩,
  ⟨0xEA, .nop, .imp, { cycles := 2 }⟩,
  ⟨0x00, .brk, .imp, { cycles := 7 }⟩,
  ⟨0x40, .rti, .imp, { cycles := 6 }⟩]

/-- The opcode table of 30_encoding.md R55, one row per defined opcode value. -/
def opcodeTable : List OpRecord :=
  loadStoreRows ++ arithmeticRows ++ logicRows ++ branchRows ++ systemRows

/-- `decode` of R54: a pure function of the opcode byte; no row means `UnknownOpcode` (R57). -/
def decodeRecord (opcode : Byte) : Option OpRecord :=
  opcodeTable.find? (fun r => r.opcode == opcode)

/-- The rows of one mnemonic, in the order of the table: the encodings its rule lists. -/
def encodingsOf (m : Mnemonic) : List OpRecord :=
  opcodeTable.filter (fun r => r.mnemonic == m)

/-! The matrix of R55: row = high nibble, column = low nibble; `b1` is a byte operand and `w` is `fromBytes(b2, b1)`, a
16-bit operand (R51, R53). A column that is not listed is undefined (R57). -/

def matrixRow0 (b1 : Byte) (w : Addr) : Nat → Option Instr
  | 0x0 => some .brk
  | 0x1 => some (.oraIzx b1)
  | 0x5 => some (.oraZp b1)
  | 0x6 => some (.aslZp b1)
  | 0x8 => some .php
  | 0x9 => some (.oraImm b1)
  | 0xA => some .aslAcc
  | 0xD => some (.oraAbs w)
  | 0xE => some (.aslAbs w)
  | _ => none

def matrixRow1 (b1 : Byte) (w : Addr) : Nat → Option Instr
  | 0x0 => some (.bpl b1)
  | 0x1 => some (.oraIzy b1)
  | 0x5 => some (.oraZpx b1)
  | 0x6 => some (.aslZpx b1)
  | 0x8 => some .clc
  | 0x9 => some (.oraAby w)
  | 0xD => some (.oraAbx w)
  | 0xE => some (.aslAbx w)
  | _ => none

def matrixRow2 (b1 : Byte) (w : Addr) : Nat → Option Instr
  | 0x0 => some (.jsr w)
  | 0x1 => some (.andIzx b1)
  | 0x4 => some (.bitZp b1)
  | 0x5 => some (.andZp b1)
  | 0x6 => some (.rolZp b1)
  | 0x8 => some .plp
  | 0x9 => some (.andImm b1)
  | 0xA => some .rolAcc
  | 0xC => some (.bitAbs w)
  | 0xD => some (.andAbs w)
  | 0xE => some (.rolAbs w)
  | _ => none

def matrixRow3 (b1 : Byte) (w : Addr) : Nat → Option Instr
  | 0x0 => some (.bmi b1)
  | 0x1 => some (.andIzy b1)
  | 0x5 => some (.andZpx b1)
  | 0x6 => some (.rolZpx b1)
  | 0x8 => some .sec
  | 0x9 => some (.andAby w)
  | 0xD => some (.andAbx w)
  | 0xE => some (.rolAbx w)
  | _ => none

def matrixRow4 (b1 : Byte) (w : Addr) : Nat → Option Instr
  | 0x0 => some .rti
  | 0x1 => some (.eorIzx b1)
  | 0x5 => some (.eorZp b1)
  | 0x6 => some (.lsrZp b1)
  | 0x8 => some .pha
  | 0x9 => some (.eorImm b1)
  | 0xA => some .lsrAcc
  | 0xC => some (.jmpAbs w)
  | 0xD => some (.eorAbs w)
  | 0xE => some (.lsrAbs w)
  | _ => none

def matrixRow5 (b1 : Byte) (w : Addr) : Nat → Option Instr
  | 0x0 => some (.bvc b1)
  | 0x1 => some (.eorIzy b1)
  | 0x5 => some (.eorZpx b1)
  | 0x6 => some (.lsrZpx b1)
  | 0x8 => some .cli
  | 0x9 => some (.eorAby w)
  | 0xD => some (.eorAbx w)
  | 0xE => some (.lsrAbx w)
  | _ => none

def matrixRow6 (b1 : Byte) (w : Addr) : Nat → Option Instr
  | 0x0 => some .rts
  | 0x1 => some (.adcIzx b1)
  | 0x5 => some (.adcZp b1)
  | 0x6 => some (.rorZp b1)
  | 0x8 => some .pla
  | 0x9 => some (.adcImm b1)
  | 0xA => some .rorAcc
  | 0xC => some (.jmpInd w)
  | 0xD => some (.adcAbs w)
  | 0xE => some (.rorAbs w)
  | _ => none

def matrixRow7 (b1 : Byte) (w : Addr) : Nat → Option Instr
  | 0x0 => some (.bvs b1)
  | 0x1 => some (.adcIzy b1)
  | 0x5 => some (.adcZpx b1)
  | 0x6 => some (.rorZpx b1)
  | 0x8 => some .sei
  | 0x9 => some (.adcAby w)
  | 0xD => some (.adcAbx w)
  | 0xE => some (.rorAbx w)
  | _ => none

def matrixRow8 (b1 : Byte) (w : Addr) : Nat → Option Instr
  | 0x1 => some (.staIzx b1)
  | 0x4 => some (.styZp b1)
  | 0x5 => some (.staZp b1)
  | 0x6 => some (.stxZp b1)
  | 0x8 => some .dey
  | 0xA => some .txa
  | 0xC => some (.styAbs w)
  | 0xD => some (.staAbs w)
  | 0xE => some (.stxAbs w)
  | _ => none

def matrixRow9 (b1 : Byte) (w : Addr) : Nat → Option Instr
  | 0x0 => some (.bcc b1)
  | 0x1 => some (.staIzy b1)
  | 0x4 => some (.styZpx b1)
  | 0x5 => some (.staZpx b1)
  | 0x6 => some (.stxZpy b1)
  | 0x8 => some .tya
  | 0x9 => some (.staAby w)
  | 0xA => some .txs
  | 0xD => some (.staAbx w)
  | _ => none

def matrixRowA (b1 : Byte) (w : Addr) : Nat → Option Instr
  | 0x0 => some (.ldyImm b1)
  | 0x1 => some (.ldaIzx b1)
  | 0x2 => some (.ldxImm b1)
  | 0x4 => some (.ldyZp b1)
  | 0x5 => some (.ldaZp b1)
  | 0x6 => some (.ldxZp b1)
  | 0x8 => some .tay
  | 0x9 => some (.ldaImm b1)
  | 0xA => some .tax
  | 0xC => some (.ldyAbs w)
  | 0xD => some (.ldaAbs w)
  | 0xE => some (.ldxAbs w)
  | _ => none

def matrixRowB (b1 : Byte) (w : Addr) : Nat → Option Instr
  | 0x0 => some (.bcs b1)
  | 0x1 => some (.ldaIzy b1)
  | 0x4 => some (.ldyZpx b1)
  | 0x5 => some (.ldaZpx b1)
  | 0x6 => some (.ldxZpy b1)
  | 0x8 => some .clv
  | 0x9 => some (.ldaAby w)
  | 0xA => some .tsx
  | 0xC => some (.ldyAbx w)
  | 0xD => some (.ldaAbx w)
  | 0xE => some (.ldxAby w)
  | _ => none

def matrixRowC (b1 : Byte) (w : Addr) : Nat → Option Instr
  | 0x0 => some (.cpyImm b1)
  | 0x1 => some (.cmpIzx b1)
  | 0x4 => some (.cpyZp b1)
  | 0x5 => some (.cmpZp b1)
  | 0x6 => some (.decZp b1)
  | 0x8 => some .iny
  | 0x9 => some (.cmpImm b1)
  | 0xA => some .dex
  | 0xC => some (.cpyAbs w)
  | 0xD => some (.cmpAbs w)
  | 0xE => some (.decAbs w)
  | _ => none

def matrixRowD (b1 : Byte) (w : Addr) : Nat → Option Instr
  | 0x0 => some (.bne b1)
  | 0x1 => some (.cmpIzy b1)
  | 0x5 => some (.cmpZpx b1)
  | 0x6 => some (.decZpx b1)
  | 0x8 => some .cld
  | 0x9 => some (.cmpAby w)
  | 0xD => some (.cmpAbx w)
  | 0xE => some (.decAbx w)
  | _ => none

def matrixRowE (b1 : Byte) (w : Addr) : Nat → Option Instr
  | 0x0 => some (.cpxImm b1)
  | 0x1 => some (.sbcIzx b1)
  | 0x4 => some (.cpxZp b1)
  | 0x5 => some (.sbcZp b1)
  | 0x6 => some (.incZp b1)
  | 0x8 => some .inx
  | 0x9 => some (.sbcImm b1)
  | 0xA => some .nop
  | 0xC => some (.cpxAbs w)
  | 0xD => some (.sbcAbs w)
  | 0xE => some (.incAbs w)
  | _ => none

def matrixRowF (b1 : Byte) (w : Addr) : Nat → Option Instr
  | 0x0 => some (.beq b1)
  | 0x1 => some (.sbcIzy b1)
  | 0x5 => some (.sbcZpx b1)
  | 0x6 => some (.incZpx b1)
  | 0x8 => some .sed
  | 0x9 => some (.sbcAby w)
  | 0xD => some (.sbcAbx w)
  | 0xE => some (.incAbx w)
  | _ => none

/-- The instruction an opcode byte and its operand bytes stand for (R53, R55); none for the 105 undefined values (R57).
Bytes beyond the instruction's size play no part. -/
def instrOf (opcode b1 b2 : Byte) : Option Instr :=
  let w := Machine.fromBytes b2 b1
  let column := opcode.toNat % 16
  match opcode.toNat / 16 with
  | 0x0 => matrixRow0 b1 w column
  | 0x1 => matrixRow1 b1 w column
  | 0x2 => matrixRow2 b1 w column
  | 0x3 => matrixRow3 b1 w column
  | 0x4 => matrixRow4 b1 w column
  | 0x5 => matrixRow5 b1 w column
  | 0x6 => matrixRow6 b1 w column
  | 0x7 => matrixRow7 b1 w column
  | 0x8 => matrixRow8 b1 w column
  | 0x9 => matrixRow9 b1 w column
  | 0xA => matrixRowA b1 w column
  | 0xB => matrixRowB b1 w column
  | 0xC => matrixRowC b1 w column
  | 0xD => matrixRowD b1 w column
  | 0xE => matrixRowE b1 w column
  | 0xF => matrixRowF b1 w column
  | _ => none

/-- Decoding of a fetched Operation: the instruction, or none where the opcode is undefined (R57). -/
def Operation.instr (o : Operation) : Option Instr :=
  instrOf o.opcode o.b1 o.b2

/-- The decoder on any list of bytes: the instruction at its head and the bytes after it, or the reason it refuses.
The length is known from the opcode byte alone (R50). -/
def decode : List Byte → Except DecodeError (Instr × List Byte)
  | [] => .error .truncated
  | opcode :: rest =>
    match decodeRecord opcode with
    | none => .error (.unknownOpcode opcode)
    | some d =>
      let answer (b1 b2 : Byte) (after : List Byte) : Except DecodeError (Instr × List Byte) :=
        match instrOf opcode b1 b2 with
        | some i => .ok (i, after)
        | none => .error (.unknownOpcode opcode)
      match d.mode.size, rest with
      | 1, after => answer 0 0 after
      | 2, b1 :: after => answer b1 0 after
      | 3, b1 :: b2 :: after => answer b1 b2 after
      | _, _ => .error .truncated

/-- Byte `k` of an instruction whose bits are `w`, of which the first `nbits` count and every later bit is 0. -/
def tableByte (nbits w k : Nat) : Byte :=
  BitVec.ofNat 8 ((w % 2 ^ nbits) / 2 ^ (8 * k))

/-- The instruction the decoder reads from the word `w` of `nbits` bits, numbered as spec/opcode_table.json numbers them
(log entry 10). -/
def decodeTableWord (nbits w : Nat) : Option Instr :=
  match decode [tableByte nbits w 0, tableByte nbits w 1, tableByte nbits w 2] with
  | .ok (i, _) => some i
  | .error _ => none

/-- Mode classification by bit pattern (R56), its eight steps in their order; it answers for 27 undefined values too,
so that a decoder tests membership in the table first. -/
def modeByPattern (opcode : Byte) : Option Mode :=
  let op := opcode.toNat
  let bbb := op / 4 % 8
  let cc := op % 4
  if op = 0x00 ∨ op = 0x40 ∨ op = 0x60 then some .imp
  else if op = 0x20 then some .abs
  else if op % 0x20 = 0x10 then some .rel
  else if op % 0x10 = 0x08 then some .imp
  else if op = 0x8A ∨ op = 0x9A ∨ op = 0xAA ∨ op = 0xBA ∨ op = 0xCA ∨ op = 0xEA then some .imp
  else if op = 0x0A ∨ op = 0x2A ∨ op = 0x4A ∨ op = 0x6A then some .acc
  else if op = 0x6C then some .ind
  else if op = 0x96 ∨ op = 0xB6 then some .zpy
  else if op = 0xBE then some .aby
  else if cc = 1 then
    match bbb with
    | 0 => some .izx | 1 => some .zp | 2 => some .imm | 3 => some .abs
    | 4 => some .izy | 5 => some .zpx | 6 => some .aby | _ => some .abx
  else if cc = 2 ∨ cc = 0 then
    match bbb with
    | 0 => some .imm | 1 => some .zp | 3 => some .abs | 5 => some .zpx | 7 => some .abx
    | _ => none
  else none

/-! The encoder. -/

/-- The mnemonic of an instruction. -/
def Instr.mnemonic : Instr → Mnemonic
  | .ldaImm _ | .ldaZp _ | .ldaZpx _ | .ldaAbs _ | .ldaAbx _ | .ldaAby _ | .ldaIzx _ | .ldaIzy _ => .lda
  | .ldxImm _ | .ldxZp _ | .ldxZpy _ | .ldxAbs _ | .ldxAby _ => .ldx
  | .ldyImm _ | .ldyZp _ | .ldyZpx _ | .ldyAbs _ | .ldyAbx _ => .ldy
  | .staZp _ | .staZpx _ | .staAbs _ | .staAbx _ | .staAby _ | .staIzx _ | .staIzy _ => .sta
  | .stxZp _ | .stxZpy _ | .stxAbs _ => .stx
  | .styZp _ | .styZpx _ | .styAbs _ => .sty
  | .tax => .tax
  | .tay => .tay
  | .tsx => .tsx
  | .txa => .txa
  | .txs => .txs
  | .tya => .tya
  | .adcImm _ | .adcZp _ | .adcZpx _ | .adcAbs _ | .adcAbx _ | .adcAby _ | .adcIzx _ | .adcIzy _ => .adc
  | .sbcImm _ | .sbcZp _ | .sbcZpx _ | .sbcAbs _ | .sbcAbx _ | .sbcAby _ | .sbcIzx _ | .sbcIzy _ => .sbc
  | .cmpImm _ | .cmpZp _ | .cmpZpx _ | .cmpAbs _ | .cmpAbx _ | .cmpAby _ | .cmpIzx _ | .cmpIzy _ => .cmp
  | .cpxImm _ | .cpxZp _ | .cpxAbs _ => .cpx
  | .cpyImm _ | .cpyZp _ | .cpyAbs _ => .cpy
  | .incZp _ | .incZpx _ | .incAbs _ | .incAbx _ => .inc
  | .inx => .inx
  | .iny => .iny
  | .decZp _ | .decZpx _ | .decAbs _ | .decAbx _ => .dec
  | .dex => .dex
  | .dey => .dey
  | .andImm _ | .andZp _ | .andZpx _ | .andAbs _ | .andAbx _ | .andAby _ | .andIzx _ | .andIzy _ => .and
  | .oraImm _ | .oraZp _ | .oraZpx _ | .oraAbs _ | .oraAbx _ | .oraAby _ | .oraIzx _ | .oraIzy _ => .ora
  | .eorImm _ | .eorZp _ | .eorZpx _ | .eorAbs _ | .eorAbx _ | .eorAby _ | .eorIzx _ | .eorIzy _ => .eor
  | .bitZp _ | .bitAbs _ => .bit
  | .aslAcc | .aslZp _ | .aslZpx _ | .aslAbs _ | .aslAbx _ => .asl
  | .lsrAcc | .lsrZp _ | .lsrZpx _ | .lsrAbs _ | .lsrAbx _ => .lsr
  | .rolAcc | .rolZp _ | .rolZpx _ | .rolAbs _ | .rolAbx _ => .rol
  | .rorAcc | .rorZp _ | .rorZpx _ | .rorAbs _ | .rorAbx _ => .ror
  | .bcc _ => .bcc
  | .bcs _ => .bcs
  | .beq _ => .beq
  | .bmi _ => .bmi
  | .bne _ => .bne
  | .bpl _ => .bpl
  | .bvc _ => .bvc
  | .bvs _ => .bvs
  | .jmpAbs _ | .jmpInd _ => .jmp
  | .jsr _ => .jsr
  | .rts => .rts
  | .pha => .pha
  | .php => .php
  | .pla => .pla
  | .plp => .plp
  | .clc => .clc
  | .sec => .sec
  | .cli => .cli
  | .sei => .sei
  | .cld => .cld
  | .sed => .sed
  | .clv => .clv
  | .nop => .nop
  | .brk => .brk
  | .rti => .rti

/-- The operand of an instruction: its mode with its operand bytes (R51). -/
def Instr.operand : Instr → Operand
  | .tax | .tay | .tsx | .txa | .txs | .tya | .inx | .iny | .dex | .dey | .rts | .pha | .php | .pla
  | .plp | .clc | .sec | .cli | .sei | .cld | .sed | .clv | .nop | .brk | .rti => .imp
  | .aslAcc | .lsrAcc | .rolAcc | .rorAcc => .acc
  | .ldaImm b | .ldxImm b | .ldyImm b | .adcImm b | .sbcImm b | .cmpImm b | .cpxImm b | .cpyImm b
  | .andImm b | .oraImm b | .eorImm b => .imm b
  | .ldaZp b | .ldxZp b | .ldyZp b | .staZp b | .stxZp b | .styZp b | .adcZp b | .sbcZp b | .cmpZp b
  | .cpxZp b | .cpyZp b | .incZp b | .decZp b | .andZp b | .oraZp b | .eorZp b | .bitZp b | .aslZp b
  | .lsrZp b | .rolZp b | .rorZp b => .mem (.zp b)
  | .ldaZpx b | .ldyZpx b | .staZpx b | .styZpx b | .adcZpx b | .sbcZpx b | .cmpZpx b | .incZpx b
  | .decZpx b | .andZpx b | .oraZpx b | .eorZpx b | .aslZpx b | .lsrZpx b | .rolZpx b | .rorZpx b => .mem (.zpx b)
  | .ldxZpy b | .stxZpy b => .mem (.zpy b)
  | .ldaAbs a | .ldxAbs a | .ldyAbs a | .staAbs a | .stxAbs a | .styAbs a | .adcAbs a | .sbcAbs a
  | .cmpAbs a | .cpxAbs a | .cpyAbs a | .incAbs a | .decAbs a | .andAbs a | .oraAbs a | .eorAbs a
  | .bitAbs a | .aslAbs a | .lsrAbs a | .rolAbs a | .rorAbs a | .jmpAbs a | .jsr a => .mem (.abs a)
  | .ldaAbx a | .ldyAbx a | .staAbx a | .adcAbx a | .sbcAbx a | .cmpAbx a | .incAbx a | .decAbx a
  | .andAbx a | .oraAbx a | .eorAbx a | .aslAbx a | .lsrAbx a | .rolAbx a | .rorAbx a => .mem (.abx a)
  | .ldaAby a | .ldxAby a | .staAby a | .adcAby a | .sbcAby a | .cmpAby a | .andAby a | .oraAby a
  | .eorAby a => .mem (.aby a)
  | .jmpInd p => .mem (.ind p)
  | .ldaIzx b | .staIzx b | .adcIzx b | .sbcIzx b | .cmpIzx b | .andIzx b | .oraIzx b | .eorIzx b => .mem (.izx b)
  | .ldaIzy b | .staIzy b | .adcIzy b | .sbcIzy b | .cmpIzy b | .andIzy b | .oraIzy b | .eorIzy b => .mem (.izy b)
  | .bcc off | .bcs off | .beq off | .bmi off | .bne off | .bpl off | .bvc off | .bvs off => .mem (.rel off)

/-- The opcode byte of an instruction (R55): the encoder's side of the table. -/
def Instr.opcode : Instr → Byte
  | .ldaImm _ => 0xA9 | .ldaZp _ => 0xA5 | .ldaZpx _ => 0xB5 | .ldaAbs _ => 0xAD | .ldaAbx _ => 0xBD
  | .ldaAby _ => 0xB9 | .ldaIzx _ => 0xA1 | .ldaIzy _ => 0xB1
  | .ldxImm _ => 0xA2 | .ldxZp _ => 0xA6 | .ldxZpy _ => 0xB6 | .ldxAbs _ => 0xAE | .ldxAby _ => 0xBE
  | .ldyImm _ => 0xA0 | .ldyZp _ => 0xA4 | .ldyZpx _ => 0xB4 | .ldyAbs _ => 0xAC | .ldyAbx _ => 0xBC
  | .staZp _ => 0x85 | .staZpx _ => 0x95 | .staAbs _ => 0x8D | .staAbx _ => 0x9D | .staAby _ => 0x99
  | .staIzx _ => 0x81 | .staIzy _ => 0x91
  | .stxZp _ => 0x86 | .stxZpy _ => 0x96 | .stxAbs _ => 0x8E
  | .styZp _ => 0x84 | .styZpx _ => 0x94 | .styAbs _ => 0x8C
  | .tax => 0xAA
  | .tay => 0xA8
  | .tsx => 0xBA
  | .txa => 0x8A
  | .txs => 0x9A
  | .tya => 0x98
  | .adcImm _ => 0x69 | .adcZp _ => 0x65 | .adcZpx _ => 0x75 | .adcAbs _ => 0x6D | .adcAbx _ => 0x7D
  | .adcAby _ => 0x79 | .adcIzx _ => 0x61 | .adcIzy _ => 0x71
  | .sbcImm _ => 0xE9 | .sbcZp _ => 0xE5 | .sbcZpx _ => 0xF5 | .sbcAbs _ => 0xED | .sbcAbx _ => 0xFD
  | .sbcAby _ => 0xF9 | .sbcIzx _ => 0xE1 | .sbcIzy _ => 0xF1
  | .cmpImm _ => 0xC9 | .cmpZp _ => 0xC5 | .cmpZpx _ => 0xD5 | .cmpAbs _ => 0xCD | .cmpAbx _ => 0xDD
  | .cmpAby _ => 0xD9 | .cmpIzx _ => 0xC1 | .cmpIzy _ => 0xD1
  | .cpxImm _ => 0xE0 | .cpxZp _ => 0xE4 | .cpxAbs _ => 0xEC
  | .cpyImm _ => 0xC0 | .cpyZp _ => 0xC4 | .cpyAbs _ => 0xCC
  | .incZp _ => 0xE6 | .incZpx _ => 0xF6 | .incAbs _ => 0xEE | .incAbx _ => 0xFE
  | .inx => 0xE8
  | .iny => 0xC8
  | .decZp _ => 0xC6 | .decZpx _ => 0xD6 | .decAbs _ => 0xCE | .decAbx _ => 0xDE
  | .dex => 0xCA
  | .dey => 0x88
  | .andImm _ => 0x29 | .andZp _ => 0x25 | .andZpx _ => 0x35 | .andAbs _ => 0x2D | .andAbx _ => 0x3D
  | .andAby _ => 0x39 | .andIzx _ => 0x21 | .andIzy _ => 0x31
  | .oraImm _ => 0x09 | .oraZp _ => 0x05 | .oraZpx _ => 0x15 | .oraAbs _ => 0x0D | .oraAbx _ => 0x1D
  | .oraAby _ => 0x19 | .oraIzx _ => 0x01 | .oraIzy _ => 0x11
  | .eorImm _ => 0x49 | .eorZp _ => 0x45 | .eorZpx _ => 0x55 | .eorAbs _ => 0x4D | .eorAbx _ => 0x5D
  | .eorAby _ => 0x59 | .eorIzx _ => 0x41 | .eorIzy _ => 0x51
  | .bitZp _ => 0x24 | .bitAbs _ => 0x2C
  | .aslAcc => 0x0A | .aslZp _ => 0x06 | .aslZpx _ => 0x16 | .aslAbs _ => 0x0E | .aslAbx _ => 0x1E
  | .lsrAcc => 0x4A | .lsrZp _ => 0x46 | .lsrZpx _ => 0x56 | .lsrAbs _ => 0x4E | .lsrAbx _ => 0x5E
  | .rolAcc => 0x2A | .rolZp _ => 0x26 | .rolZpx _ => 0x36 | .rolAbs _ => 0x2E | .rolAbx _ => 0x3E
  | .rorAcc => 0x6A | .rorZp _ => 0x66 | .rorZpx _ => 0x76 | .rorAbs _ => 0x6E | .rorAbx _ => 0x7E
  | .bcc _ => 0x90
  | .bcs _ => 0xB0
  | .beq _ => 0xF0
  | .bmi _ => 0x30
  | .bne _ => 0xD0
  | .bpl _ => 0x10
  | .bvc _ => 0x50
  | .bvs _ => 0x70
  | .jmpAbs _ => 0x4C | .jmpInd _ => 0x6C
  | .jsr _ => 0x20
  | .rts => 0x60
  | .pha => 0x48
  | .php => 0x08
  | .pla => 0x68
  | .plp => 0x28
  | .clc => 0x18
  | .sec => 0x38
  | .cli => 0x58
  | .sei => 0x78
  | .cld => 0xD8
  | .sed => 0xF8
  | .clv => 0xB8
  | .nop => 0xEA
  | .brk => 0x00
  | .rti => 0x40

/-- The operand bytes of a memory operand, `b1` first; a 16-bit form is stored low byte first (R34, R51). -/
def MemOperand.bytes : MemOperand → List Byte
  | .zp b | .zpx b | .zpy b | .izx b | .izy b => [b]
  | .rel off => [off]
  | .abs a | .abx a | .aby a => [Machine.lo a, Machine.hi a]
  | .ind p => [Machine.lo p, Machine.hi p]

def Operand.bytes : Operand → List Byte
  | .imp | .acc => []
  | .imm b => [b]
  | .mem m => m.bytes

/-- The bytes of an instruction in memory order (R50, R51): the opcode byte, then the operand bytes. -/
def encode (i : Instr) : List Byte :=
  i.opcode :: i.operand.bytes

/-- The Operation a fetch of the instruction builds: bytes beyond its size are 0x00 (R71). -/
def Instr.toOperation (i : Instr) : Operation :=
  { opcode := i.opcode, b1 := i.operand.bytes.getD 0 0x00, b2 := i.operand.bytes.getD 1 0x00 }

/-- Size of an instruction in bytes (R52). -/
def Instr.size (i : Instr) : Nat :=
  i.operand.mode.size

end Sys2Proof
end

