-- ==== Sys2Proof/Machine/State.lean ====
section
/-!
DEFINITION. The state of the machine, whole (10_state.md R10: PC, AC, X, Y, SP, seven flags, the stall counter; and the
Bus content, 20_memory.md R30), the reasons a step can stop, and the state right after reset.
-/

namespace Sys2Proof.Machine

/-- The Bus content: address and byte pairs, addresses strictly rising, no entry equal to what an unlisted address reads
as (`Memory.wf`, Machine/Ops.lean). -/
abbrev Memory := List Host.Cell

/-- Everything that survives from one tick to the next (10_state.md R10, R16, R25; 20_memory.md R30). -/
structure State where
  pc : Addr        -- R11, program counter
  ac : Byte        -- R12, accumulator
  x : Byte         -- R13, index register
  y : Byte         -- R14, index register
  sp : Byte        -- R15, stack pointer, low byte of an address in page 1
  n : Bool         -- R17, Negative
  v : Bool         -- R18, Overflow
  b : Bool         -- R19, Break, a stored flag
  d : Bool         -- R20, Decimal, inert
  i : Bool         -- R21, Interrupt-disable, masks nothing
  z : Bool         -- R22, Zero
  c : Bool         -- R23, Carry
  stall : Nat      -- R25, cycles-remaining, 0 to 6
  mem : Memory     -- R30, the Bus content
  deriving DecidableEq, Repr

/-- The one exception of the hardware (60_exceptions.md R200). -/
inductive Fault where
  /-- Raised by `tick` and `execute` when the opcode byte is one of the 105 undefined values (R57, R75, R200, R216). It
  carries the address the opcode was fetched from and the opcode byte; no state changes (R201). Safe: the machine
  stops where the hardware raises the same fault for ever (R202). -/
  | unknownOpcode (pc : Addr) (opcode : Byte)
  deriving DecidableEq, Repr

/-- The reasons the model has no meaning for an instruction. -/
inductive Refusal where
  /-- Raised by an arm of `exec` for an instruction without a meaning; every instruction has one, so nothing raises it.
  Safe. -/
  | notModelled (mnemonic : String)
  deriving DecidableEq, Repr

/-- What a step answers. -/
abbrev Result := Host.Outcome State Fault Refusal

/-- The machine right after power-on (R29, R220). `stall` is 0 and memory reads 0 everywhere by the spec; the registers
and flags are launch parameters the spec leaves open, here 0, the default R29 names. DESIGN CHOICE, log entries 1, 2
and 3, unsafe. No vector is read (R222). -/
def State.reset : State where
  pc := 0x0000
  ac := 0x00
  x := 0x00
  y := 0x00
  sp := 0x00
  n := false
  v := false
  b := false
  d := false
  i := false
  z := false
  c := false
  stall := Config.initStall
  mem := []

end Sys2Proof.Machine
end

