-- ==== Sys2Proof/Machine/Flags.lean ====
section
/-!
DEFINITION. Every flag computation of the spec: `setZN` (40_engine_and_addressing.md R97), the carry and overflow of
ADC and SBC (42_arithmetic.md R120, R121), the carry of the compares (R122), and the status byte in both directions
(10_state.md R24).
-/

namespace Sys2Proof.Machine

/-- `setZN(v)` (R97): `Z <- (v == 0x00)`, `N <- v[7]`. -/
def State.setZN (s : State) (r : Byte) : State :=
  { s with z := r == 0x00, n := r.msb }

/-- The unwrapped 9-bit sum of two bytes and a carry (R120). -/
def sum9 (a m : Byte) (carry : Bool) : BitVec 9 :=
  a.zeroExtend 9 + m.zeroExtend 9 + (BitVec.ofBool carry).zeroExtend 9

/-- `sum[8]` (R120). -/
def carryOut (sum : BitVec 9) : Bool := sum.getLsbD 8

/-- `sum[7:0]` (R120). -/
def lowByte (sum : BitVec 9) : Byte := sum.extractLsb' 0 8

/-- The two's-complement overflow test of ADC (R120). -/
def overflowAdd (old m new : Byte) : Bool :=
  (~~~(old ^^^ m) &&& (old ^^^ new) &&& 0x80) != 0

/-- The overflow test of SBC, with the operand itself, not its complement (R121). -/
def overflowSub (old m new : Byte) : Bool :=
  ((old ^^^ m) &&& (old ^^^ new) &&& 0x80) != 0

/-- `r >= m`, unsigned (R122 to R124). -/
def noBorrow (r m : Byte) : Bool := decide (m ≤ r)

/-- A flag at bit `k` of a byte. -/
def flagAt (f : Bool) (k : Nat) : Byte := (BitVec.ofBool f).zeroExtend 8 <<< k

/-- `P_byte()` (R24): `N V 1 B D I Z C` from bit 7 to bit 0. -/
def State.pByte (s : State) : Byte :=
  flagAt s.n 7 ||| flagAt s.v 6 ||| 0x20 ||| flagAt s.b 4 ||| flagAt s.d 3 ||| flagAt s.i 2 |||
    flagAt s.z 1 ||| flagAt s.c 0

/-- The byte PHP and BRK push (R24): bits 5 and 4 always 1. -/
def State.pushedStatus (s : State) : Byte := s.pByte ||| 0x30

/-- `setP(v)` (R24): writes six flags; bits 5 and 4 are ignored and `B` is left alone. -/
def State.setP (s : State) (p : Byte) : State :=
  { s with n := p.getLsbD 7, v := p.getLsbD 6, d := p.getLsbD 3, i := p.getLsbD 2, z := p.getLsbD 1, c := p.getLsbD 0 }

end Sys2Proof.Machine
end

