-- ==== Sys2Proof/Machine/Ops.lean ====
section
/-!
DEFINITION. The named operations over memory, the stack and the engine's registers: the Bus contract (20_memory.md R31
to R33), 16-bit reads and the stack (40_engine_and_addressing.md R98, R99), the trap entry of BRK and the return of RTI
(60_exceptions.md R206, R207), the PC advance (R73) and the stall load that ends a Ready transition (R74).
-/

namespace Sys2Proof.Machine

/-! The memory, keyed by the address as a number. -/

/-- The byte listed for key `a`, or what an unlisted address reads as (R33). -/
def Memory.readKey : Memory → Nat → Byte
  | [], _ => Config.unlistedByte
  | (k, w) :: m, a => if k = a then w else Memory.readKey m a

/-- The list without the entries of key `a`. -/
def Memory.erase (m : Memory) (a : Nat) : Memory :=
  m.filter (fun cell => cell.1 != a)

/-- The list with the entry `(a, w)` put before the first greater key. -/
def Memory.insert : Memory → Nat → Byte → Memory
  | [], a, w => [(a, w)]
  | (k, u) :: m, a, w => if a < k then (a, w) :: (k, u) :: m else (k, u) :: Memory.insert m a w

/-- Replaces what key `a` holds and keeps the canonical form: the value an unlisted address reads as is not listed. -/
def Memory.writeKey (m : Memory) (a : Nat) (w : Byte) : Memory :=
  if w = Config.unlistedByte then Memory.erase m a else Memory.insert (Memory.erase m a) a w

/-- The canonical form: keys strictly rising, no entry equal to what an unlisted address reads as, every key an address
of the 65536 of R30. -/
abbrev Memory.wf (m : Memory) : Prop :=
  List.Pairwise (fun p q => p.1 < q.1) m ∧ ∀ p ∈ m, p.2 ≠ Config.unlistedByte ∧ p.1 < 65536

/-- `MemRead(addr, 1)` (R31): total, and it changes nothing. -/
def State.read (s : State) (a : Addr) : Byte := Memory.readKey s.mem a.toNat

/-- `MemWrite(addr, 1, v)` (R32): "replaces stored value; no validation". -/
def State.write (s : State) (a : Addr) (w : Byte) : State :=
  { s with mem := Memory.writeKey s.mem a.toNat w }

/-- `read16(a)` (R98): low byte at `a`, high byte at `a +16 1`. -/
def State.read16 (s : State) (a : Addr) : Addr := fromBytes (s.read (a + 1)) (s.read a)

/-- The pointer of mode `IND` (R89). -/
def State.readIndirect (s : State) (p : Addr) : Addr := fromBytes (s.read (indirectHigh p)) (s.read p)

/-- `read16zp(z)` (R98): both bytes in page 0. -/
def State.read16zp (s : State) (z : Byte) : Addr := fromBytes (s.read (zeroPageHigh z)) (s.read (zeroPage z))

/-! The stack (R99). -/

/-- `push(v)`: write at `{0x01, SP}`, with the `SP` from before, and decrement `SP`. -/
def State.push (s : State) (w : Byte) : State :=
  ({ s with sp := s.sp - 1 } : State).write (stackAddr s.sp) w

/-- `pull()`: increment `SP`, then read at `{0x01, SP}`. -/
def State.pull (s : State) : Byte × State :=
  let s1 := { s with sp := s.sp + 1 }
  (s1.read (stackAddr s1.sp), s1)

/-- A pushed address: high byte first, so that the low byte lies lower (R99, R34). -/
def State.push16 (s : State) (a : Addr) : State := (s.push (hi a)).push (lo a)

/-- A pulled address: low byte first (R99). -/
def State.pull16 (s : State) : Addr × State :=
  let low := s.pull
  let high := low.2.pull
  (fromBytes high.1 low.1, high.2)

/-! Taking the hardware's one trap and returning from it. -/

/-- Trap entry (60_exceptions.md R206; 45_stack_flag_system.md R182), run with `PC` already one past the BRK opcode: push
`PC +16 1` high byte first, set `B`, push the status byte with bits 5 and 4 set and `I` as it was, set `I`, load `PC`
from the BRK vector. -/
def State.takeTrap (s : State) : State :=
  let s1 := s.push16 (s.pc + 1)
  let s2 := { s1 with b := true }
  let s3 := s2.push s2.pushedStatus
  { s3 with i := true, pc := s3.read16 Config.brkVector }

/-- Trap return (60_exceptions.md R207; R183): six flags from the pulled status byte, then `PC` from the pulled address,
with no + 1. -/
def State.returnFromTrap (s : State) : State :=
  let status := s.pull
  let target := (status.2.setP status.1).pull16
  { target.2 with pc := target.1 }

/-! The engine's own writes. -/

/-- The PC advance (R73), before the operand is resolved. -/
def State.advance (s : State) (size : Nat) : State :=
  { s with pc := s.pc + BitVec.ofNat 16 size }

end Sys2Proof.Machine

namespace Sys2Proof

/-- The extra cycles of R71 and R74: one for a page crossing of a page-sensitive opcode, one for a taken branch and one
more if its target lies in another page. -/
def Timing.extra (t : Timing) (crossed taken bcross : Bool) : Nat :=
  (if t.pageSensitive && crossed then 1 else 0) +
    (if t.branchSensitive && taken then 1 + (if bcross then 1 else 0) else 0)

end Sys2Proof

namespace Sys2Proof.Machine

/-- The end of a Ready transition (R71, R74): `stall <- d.cycles - 1 + extra`. -/
def finish (t : Timing) (crossed taken bcross : Bool) (s : State) : Result :=
  .next { s with stall := t.cycles - 1 + t.extra crossed taken bcross }

end Sys2Proof.Machine
end

