-- ==== Sys2Proof/Machine/Operands.lean ====
section
/-!
DEFINITION. The address resolver (40_engine_and_addressing.md R79 to R94): the location and the page-crossed bit of every
addressing mode, and one shared Ready transition (R71) per class of R95. Each runs in the order of R71: advance `PC`,
resolve, handle, load `stall`.
-/

namespace Sys2Proof.Machine

/-- A resolved memory location: the address `a` of `Mem(a)` and the bit `crossed` (R79). -/
structure Resolved where
  addr : Addr
  crossed : Bool
  deriving DecidableEq, Repr

/-- Base plus index, modulo 65536; crossed when the high byte changed (R84, R85, R91, R94). -/
def indexed (base : Addr) (index : Byte) : Resolved :=
  let a := base + index.zeroExtend 16
  { addr := a, crossed := hi a != hi base }

end Sys2Proof.Machine

namespace Sys2Proof

/-- Resolution of a memory operand (R83 to R92), on the state after the PC advance. -/
def MemOperand.resolve (m : MemOperand) (s : Machine.State) : Machine.Resolved :=
  match m with
  | .zp b => { addr := Machine.zeroPage b, crossed := false }                    -- R86
  | .zpx b => { addr := Machine.zeroPage (b + s.x), crossed := false }           -- R87
  | .zpy b => { addr := Machine.zeroPage (b + s.y), crossed := false }           -- R88
  | .abs a => { addr := a, crossed := false }                                    -- R83
  | .abx a => Machine.indexed a s.x                                              -- R84
  | .aby a => Machine.indexed a s.y                                              -- R85
  | .ind p => { addr := s.readIndirect p, crossed := false }                     -- R89
  | .izx b => { addr := s.read16zp (b + s.x), crossed := false }                 -- R90
  | .izy b => Machine.indexed (s.read16zp b) s.y                                 -- R91
  | .rel off => { addr := Machine.withOffset s.pc off, crossed := false }        -- R92

end Sys2Proof

namespace Sys2Proof.Machine

/-- Class read, immediate operand (R81, R95): the value is `b1`. -/
def readImm (t : Timing) (b : Byte) (handler : Byte → State → State) (s : State) : Result :=
  finish t false false false (handler b (s.advance 2))

/-- Class read, memory operand (R93, R95): one read at the resolved address. -/
def readMem (t : Timing) (m : MemOperand) (handler : Byte → State → State) (s : State) : Result :=
  let s1 := s.advance m.mode.size
  let loc := m.resolve s1
  finish t loc.crossed false false (handler (s1.read loc.addr) s1)

/-- Class write (R95): one write of a register at the resolved address; the location is not read. -/
def storeMem (t : Timing) (m : MemOperand) (register : State → Byte) (s : State) : Result :=
  let s1 := s.advance m.mode.size
  let loc := m.resolve s1
  finish t loc.crossed false false (s1.write loc.addr (register s1))

/-- Class read-modify-write on `AC` (R80, R93): the handler gives the new value and the flags; no Bus access. -/
def modifyAcc (t : Timing) (handler : Byte → State → Byte × State) (s : State) : Result :=
  let s1 := s.advance 1
  let r := handler s1.ac s1
  finish t false false false { r.2 with ac := r.1 }

/-- Class read-modify-write on memory (R95): one read, then one write of the new value. -/
def modifyMem (t : Timing) (m : MemOperand) (handler : Byte → State → Byte × State) (s : State) : Result :=
  let s1 := s.advance m.mode.size
  let loc := m.resolve s1
  let r := handler (s1.read loc.addr) s1
  finish t loc.crossed false false (r.2.write loc.addr r.1)

/-- Class address only, JMP and JSR (R95): the resolved address is a `PC` value; no access at it. -/
def transfer (t : Timing) (m : MemOperand) (handler : Addr → State → State) (s : State) : Result :=
  let s1 := s.advance m.mode.size
  let loc := m.resolve s1
  finish t loc.crossed false false (handler loc.addr s1)

/-- The shared branch handler (44_branch_jump.md R149): the target is resolved from the advanced `PC`; the page test
compares it with that `PC`. -/
def branch (t : Timing) (cond : Bool) (off : Byte) (s : State) : Result :=
  let s1 := s.advance 2
  let target := ((MemOperand.rel off).resolve s1).addr
  if cond then finish t false true (hi target != hi s1.pc) { s1 with pc := target }
  else finish t false false false s1

/-- Class none (R82, R95): an Implied instruction names its own registers. -/
def implied (t : Timing) (handler : State → State) (s : State) : Result :=
  finish t false false false (handler (s.advance 1))

end Sys2Proof.Machine
end

