-- ==== Sys2Proof/Machine/Arithmetic.lean ====
section
/-!
DEFINITION. Arithmetic, compare, increment and decrement (42_arithmetic.md R120 to R130). Binary only: `D` is not
consulted (R132).
-/

namespace Sys2Proof.Machine

/-- ADC (R120): the 9-bit sum of `AC`, the operand and `C`. -/
def doAdc (m : Byte) (s : State) : State :=
  let sum := sum9 s.ac m s.c
  let r := lowByte sum
  { s with c := carryOut sum, ac := r, v := overflowAdd s.ac m r }.setZN r

/-- ADC `IMM`, opcode 0x69, 2 bytes, 2 cycles (R120). -/
def execAdcImm (b : Byte) (s : State) : Result :=
  readImm { cycles := 2 } b doAdc s

/-- ADC `ZP`, opcode 0x65, 2 bytes, 3 cycles (R120). -/
def execAdcZp (b : Byte) (s : State) : Result :=
  readMem { cycles := 3 } (.zp b) doAdc s

/-- ADC `ZPX`, opcode 0x75, 2 bytes, 4 cycles (R120). -/
def execAdcZpx (b : Byte) (s : State) : Result :=
  readMem { cycles := 4 } (.zpx b) doAdc s

/-- ADC `ABS`, opcode 0x6D, 3 bytes, 4 cycles (R120). -/
def execAdcAbs (a : Addr) (s : State) : Result :=
  readMem { cycles := 4 } (.abs a) doAdc s

/-- ADC `ABX`, opcode 0x7D, 3 bytes, 4+ cycles (R120). -/
def execAdcAbx (a : Addr) (s : State) : Result :=
  readMem { cycles := 4, pageSensitive := true } (.abx a) doAdc s

/-- ADC `ABY`, opcode 0x79, 3 bytes, 4+ cycles (R120). -/
def execAdcAby (a : Addr) (s : State) : Result :=
  readMem { cycles := 4, pageSensitive := true } (.aby a) doAdc s

/-- ADC `IZX`, opcode 0x61, 2 bytes, 6 cycles (R120). -/
def execAdcIzx (b : Byte) (s : State) : Result :=
  readMem { cycles := 6 } (.izx b) doAdc s

/-- ADC `IZY`, opcode 0x71, 2 bytes, 5+ cycles (R120). -/
def execAdcIzy (b : Byte) (s : State) : Result :=
  readMem { cycles := 5, pageSensitive := true } (.izy b) doAdc s

/-- SBC (R121): ADC of the one's complement of the operand, its overflow test with the operand itself. -/
def doSbc (m : Byte) (s : State) : State :=
  let sum := sum9 s.ac (m ^^^ 0xFF) s.c
  let r := lowByte sum
  { s with c := carryOut sum, ac := r, v := overflowSub s.ac m r }.setZN r

/-- SBC `IMM`, opcode 0xE9, 2 bytes, 2 cycles (R121). -/
def execSbcImm (b : Byte) (s : State) : Result :=
  readImm { cycles := 2 } b doSbc s

/-- SBC `ZP`, opcode 0xE5, 2 bytes, 3 cycles (R121). -/
def execSbcZp (b : Byte) (s : State) : Result :=
  readMem { cycles := 3 } (.zp b) doSbc s

/-- SBC `ZPX`, opcode 0xF5, 2 bytes, 4 cycles (R121). -/
def execSbcZpx (b : Byte) (s : State) : Result :=
  readMem { cycles := 4 } (.zpx b) doSbc s

/-- SBC `ABS`, opcode 0xED, 3 bytes, 4 cycles (R121). -/
def execSbcAbs (a : Addr) (s : State) : Result :=
  readMem { cycles := 4 } (.abs a) doSbc s

/-- SBC `ABX`, opcode 0xFD, 3 bytes, 4+ cycles (R121). -/
def execSbcAbx (a : Addr) (s : State) : Result :=
  readMem { cycles := 4, pageSensitive := true } (.abx a) doSbc s

/-- SBC `ABY`, opcode 0xF9, 3 bytes, 4+ cycles (R121). -/
def execSbcAby (a : Addr) (s : State) : Result :=
  readMem { cycles := 4, pageSensitive := true } (.aby a) doSbc s

/-- SBC `IZX`, opcode 0xE1, 2 bytes, 6 cycles (R121). -/
def execSbcIzx (b : Byte) (s : State) : Result :=
  readMem { cycles := 6 } (.izx b) doSbc s

/-- SBC `IZY`, opcode 0xF1, 2 bytes, 5+ cycles (R121). -/
def execSbcIzy (b : Byte) (s : State) : Result :=
  readMem { cycles := 5, pageSensitive := true } (.izy b) doSbc s

/-! Compares: `r - m` on 8 bits, flags only. -/

/-- CMP (R122). -/
def doCmp (m : Byte) (s : State) : State := { s with c := noBorrow s.ac m }.setZN (s.ac - m)

/-- CMP `IMM`, opcode 0xC9, 2 bytes, 2 cycles (R122). -/
def execCmpImm (b : Byte) (s : State) : Result :=
  readImm { cycles := 2 } b doCmp s

/-- CMP `ZP`, opcode 0xC5, 2 bytes, 3 cycles (R122). -/
def execCmpZp (b : Byte) (s : State) : Result :=
  readMem { cycles := 3 } (.zp b) doCmp s

/-- CMP `ZPX`, opcode 0xD5, 2 bytes, 4 cycles (R122). -/
def execCmpZpx (b : Byte) (s : State) : Result :=
  readMem { cycles := 4 } (.zpx b) doCmp s

/-- CMP `ABS`, opcode 0xCD, 3 bytes, 4 cycles (R122). -/
def execCmpAbs (a : Addr) (s : State) : Result :=
  readMem { cycles := 4 } (.abs a) doCmp s

/-- CMP `ABX`, opcode 0xDD, 3 bytes, 4+ cycles (R122). -/
def execCmpAbx (a : Addr) (s : State) : Result :=
  readMem { cycles := 4, pageSensitive := true } (.abx a) doCmp s

/-- CMP `ABY`, opcode 0xD9, 3 bytes, 4+ cycles (R122). -/
def execCmpAby (a : Addr) (s : State) : Result :=
  readMem { cycles := 4, pageSensitive := true } (.aby a) doCmp s

/-- CMP `IZX`, opcode 0xC1, 2 bytes, 6 cycles (R122). -/
def execCmpIzx (b : Byte) (s : State) : Result :=
  readMem { cycles := 6 } (.izx b) doCmp s

/-- CMP `IZY`, opcode 0xD1, 2 bytes, 5+ cycles (R122). -/
def execCmpIzy (b : Byte) (s : State) : Result :=
  readMem { cycles := 5, pageSensitive := true } (.izy b) doCmp s

/-- CPX (R123). -/
def doCpx (m : Byte) (s : State) : State := { s with c := noBorrow s.x m }.setZN (s.x - m)

/-- CPX `IMM`, opcode 0xE0, 2 bytes, 2 cycles (R123). -/
def execCpxImm (b : Byte) (s : State) : Result :=
  readImm { cycles := 2 } b doCpx s

/-- CPX `ZP`, opcode 0xE4, 2 bytes, 3 cycles (R123). -/
def execCpxZp (b : Byte) (s : State) : Result :=
  readMem { cycles := 3 } (.zp b) doCpx s

/-- CPX `ABS`, opcode 0xEC, 3 bytes, 4 cycles (R123). -/
def execCpxAbs (a : Addr) (s : State) : Result :=
  readMem { cycles := 4 } (.abs a) doCpx s

/-- CPY (R124). -/
def doCpy (m : Byte) (s : State) : State := { s with c := noBorrow s.y m }.setZN (s.y - m)

/-- CPY `IMM`, opcode 0xC0, 2 bytes, 2 cycles (R124). -/
def execCpyImm (b : Byte) (s : State) : Result :=
  readImm { cycles := 2 } b doCpy s

/-- CPY `ZP`, opcode 0xC4, 2 bytes, 3 cycles (R124). -/
def execCpyZp (b : Byte) (s : State) : Result :=
  readMem { cycles := 3 } (.zp b) doCpy s

/-- CPY `ABS`, opcode 0xCC, 3 bytes, 4 cycles (R124). -/
def execCpyAbs (a : Addr) (s : State) : Result :=
  readMem { cycles := 4 } (.abs a) doCpy s

/-! Increment and decrement: none touches `C` or `V`. -/

/-- INC (R125): the new value and the flags. -/
def doInc (w : Byte) (s : State) : Byte × State := (w + 1, s.setZN (w + 1))

/-- INC `ZP`, opcode 0xE6, 2 bytes, 5 cycles (R125). -/
def execIncZp (b : Byte) (s : State) : Result :=
  modifyMem { cycles := 5 } (.zp b) doInc s

/-- INC `ZPX`, opcode 0xF6, 2 bytes, 6 cycles (R125). -/
def execIncZpx (b : Byte) (s : State) : Result :=
  modifyMem { cycles := 6 } (.zpx b) doInc s

/-- INC `ABS`, opcode 0xEE, 3 bytes, 6 cycles (R125). -/
def execIncAbs (a : Addr) (s : State) : Result :=
  modifyMem { cycles := 6 } (.abs a) doInc s

/-- INC `ABX`, opcode 0xFE, 3 bytes, 7 cycles (R125). -/
def execIncAbx (a : Addr) (s : State) : Result :=
  modifyMem { cycles := 7 } (.abx a) doInc s

/-- `X <- X +8 1; setZN(X)` (R126). -/
def doInx (s : State) : State := { s with x := s.x + 1 }.setZN (s.x + 1)

/-- INX `IMP`, opcode 0xE8, 1 byte, 2 cycles (R126). -/
def execInx (s : State) : Result :=
  implied { cycles := 2 } doInx s

/-- `Y <- Y +8 1; setZN(Y)` (R127). -/
def doIny (s : State) : State := { s with y := s.y + 1 }.setZN (s.y + 1)

/-- INY `IMP`, opcode 0xC8, 1 byte, 2 cycles (R127). -/
def execIny (s : State) : Result :=
  implied { cycles := 2 } doIny s

/-- DEC (R128): the new value and the flags. -/
def doDec (w : Byte) (s : State) : Byte × State := (w - 1, s.setZN (w - 1))

/-- DEC `ZP`, opcode 0xC6, 2 bytes, 5 cycles (R128). -/
def execDecZp (b : Byte) (s : State) : Result :=
  modifyMem { cycles := 5 } (.zp b) doDec s

/-- DEC `ZPX`, opcode 0xD6, 2 bytes, 6 cycles (R128). -/
def execDecZpx (b : Byte) (s : State) : Result :=
  modifyMem { cycles := 6 } (.zpx b) doDec s

/-- DEC `ABS`, opcode 0xCE, 3 bytes, 6 cycles (R128). -/
def execDecAbs (a : Addr) (s : State) : Result :=
  modifyMem { cycles := 6 } (.abs a) doDec s

/-- DEC `ABX`, opcode 0xDE, 3 bytes, 7 cycles (R128). -/
def execDecAbx (a : Addr) (s : State) : Result :=
  modifyMem { cycles := 7 } (.abx a) doDec s

/-- `X <- X -8 1; setZN(X)` (R129). -/
def doDex (s : State) : State := { s with x := s.x - 1 }.setZN (s.x - 1)

/-- DEX `IMP`, opcode 0xCA, 1 byte, 2 cycles (R129). -/
def execDex (s : State) : Result :=
  implied { cycles := 2 } doDex s

/-- `Y <- Y -8 1; setZN(Y)` (R130). -/
def doDey (s : State) : State := { s with y := s.y - 1 }.setZN (s.y - 1)

/-- DEY `IMP`, opcode 0x88, 1 byte, 2 cycles (R130). -/
def execDey (s : State) : Result :=
  implied { cycles := 2 } doDey s

end Sys2Proof.Machine
end

