-- ==== Sys2Proof/Machine/Branch.lean ====
section
/-!
DEFINITION. Branches, jumps, subroutine call and return (44_branch_jump.md R149 to R160).
-/

namespace Sys2Proof.Machine

/-! The conditional branches, over the shared handler of R149. -/

/-- BCC `REL`, opcode 0x90, 2 bytes, 2* cycles (R150). -/
def execBcc (off : Byte) (s : State) : Result :=
  branch { cycles := 2, branchSensitive := true } (!s.c) off s

/-- BCS `REL`, opcode 0xB0, 2 bytes, 2* cycles (R151). -/
def execBcs (off : Byte) (s : State) : Result :=
  branch { cycles := 2, branchSensitive := true } (s.c) off s

/-- BEQ `REL`, opcode 0xF0, 2 bytes, 2* cycles (R152). -/
def execBeq (off : Byte) (s : State) : Result :=
  branch { cycles := 2, branchSensitive := true } (s.z) off s

/-- BMI `REL`, opcode 0x30, 2 bytes, 2* cycles (R153). -/
def execBmi (off : Byte) (s : State) : Result :=
  branch { cycles := 2, branchSensitive := true } (s.n) off s

/-- BNE `REL`, opcode 0xD0, 2 bytes, 2* cycles (R154). -/
def execBne (off : Byte) (s : State) : Result :=
  branch { cycles := 2, branchSensitive := true } (!s.z) off s

/-- BPL `REL`, opcode 0x10, 2 bytes, 2* cycles (R155). -/
def execBpl (off : Byte) (s : State) : Result :=
  branch { cycles := 2, branchSensitive := true } (!s.n) off s

/-- BVC `REL`, opcode 0x50, 2 bytes, 2* cycles (R156). -/
def execBvc (off : Byte) (s : State) : Result :=
  branch { cycles := 2, branchSensitive := true } (!s.v) off s

/-- BVS `REL`, opcode 0x70, 2 bytes, 2* cycles (R157). -/
def execBvs (off : Byte) (s : State) : Result :=
  branch { cycles := 2, branchSensitive := true } (s.v) off s

/-- `PC <- a` (R158). -/
def doJmp (a : Addr) (s : State) : State := { s with pc := a }

/-- JMP `ABS`, opcode 0x4C, 3 bytes, 3 cycles (R158). -/
def execJmpAbs (a : Addr) (s : State) : Result :=
  transfer { cycles := 3 } (.abs a) doJmp s

/-- JMP `IND`, opcode 0x6C, 3 bytes, 5 cycles (R158). -/
def execJmpInd (p : Addr) (s : State) : Result :=
  transfer { cycles := 5 } (.ind p) doJmp s

/-- JSR (R159): push the address of its own last byte, high byte first; `PC <- a`. -/
def doJsr (a : Addr) (s : State) : State := { s.push16 (s.pc - 1) with pc := a }

/-- JSR `ABS`, opcode 0x20, 3 bytes, 6 cycles (R159). -/
def execJsr (a : Addr) (s : State) : Result :=
  transfer { cycles := 6 } (.abs a) doJsr s

/-- RTS (R160): pull an address, low byte first; `PC` is that address plus 1. -/
def doRts (s : State) : State :=
  let r := s.pull16
  { r.2 with pc := r.1 + 1 }

/-- RTS `IMP`, opcode 0x60, 1 byte, 6 cycles (R160). -/
def execRts (s : State) : Result :=
  implied { cycles := 6 } doRts s

end Sys2Proof.Machine
end

