-- ==== Sys2Proof/Machine/LoadStore.lean ====
section
/-!
DEFINITION. Loads, stores and register transfers (41_load_store_transfer.md R100 to R111).
-/

namespace Sys2Proof.Machine

/-! Loads. -/

/-- `AC <- value(loc); setZN(AC)` (R100). -/
def doLda (m : Byte) (s : State) : State := { s with ac := m }.setZN m

/-- LDA `IMM`, opcode 0xA9, 2 bytes, 2 cycles (R100). -/
def execLdaImm (b : Byte) (s : State) : Result :=
  readImm { cycles := 2 } b doLda s

/-- LDA `ZP`, opcode 0xA5, 2 bytes, 3 cycles (R100). -/
def execLdaZp (b : Byte) (s : State) : Result :=
  readMem { cycles := 3 } (.zp b) doLda s

/-- LDA `ZPX`, opcode 0xB5, 2 bytes, 4 cycles (R100). -/
def execLdaZpx (b : Byte) (s : State) : Result :=
  readMem { cycles := 4 } (.zpx b) doLda s

/-- LDA `ABS`, opcode 0xAD, 3 bytes, 4 cycles (R100). -/
def execLdaAbs (a : Addr) (s : State) : Result :=
  readMem { cycles := 4 } (.abs a) doLda s

/-- LDA `ABX`, opcode 0xBD, 3 bytes, 4+ cycles (R100). -/
def execLdaAbx (a : Addr) (s : State) : Result :=
  readMem { cycles := 4, pageSensitive := true } (.abx a) doLda s

/-- LDA `ABY`, opcode 0xB9, 3 bytes, 4+ cycles (R100). -/
def execLdaAby (a : Addr) (s : State) : Result :=
  readMem { cycles := 4, pageSensitive := true } (.aby a) doLda s

/-- LDA `IZX`, opcode 0xA1, 2 bytes, 6 cycles (R100). -/
def execLdaIzx (b : Byte) (s : State) : Result :=
  readMem { cycles := 6 } (.izx b) doLda s

/-- LDA `IZY`, opcode 0xB1, 2 bytes, 5+ cycles (R100). -/
def execLdaIzy (b : Byte) (s : State) : Result :=
  readMem { cycles := 5, pageSensitive := true } (.izy b) doLda s

/-- `X <- value(loc); setZN(X)` (R101). -/
def doLdx (m : Byte) (s : State) : State := { s with x := m }.setZN m

/-- LDX `IMM`, opcode 0xA2, 2 bytes, 2 cycles (R101). -/
def execLdxImm (b : Byte) (s : State) : Result :=
  readImm { cycles := 2 } b doLdx s

/-- LDX `ZP`, opcode 0xA6, 2 bytes, 3 cycles (R101). -/
def execLdxZp (b : Byte) (s : State) : Result :=
  readMem { cycles := 3 } (.zp b) doLdx s

/-- LDX `ZPY`, opcode 0xB6, 2 bytes, 4 cycles (R101). -/
def execLdxZpy (b : Byte) (s : State) : Result :=
  readMem { cycles := 4 } (.zpy b) doLdx s

/-- LDX `ABS`, opcode 0xAE, 3 bytes, 4 cycles (R101). -/
def execLdxAbs (a : Addr) (s : State) : Result :=
  readMem { cycles := 4 } (.abs a) doLdx s

/-- LDX `ABY`, opcode 0xBE, 3 bytes, 4+ cycles (R101). -/
def execLdxAby (a : Addr) (s : State) : Result :=
  readMem { cycles := 4, pageSensitive := true } (.aby a) doLdx s

/-- `Y <- value(loc); setZN(Y)` (R102). -/
def doLdy (m : Byte) (s : State) : State := { s with y := m }.setZN m

/-- LDY `IMM`, opcode 0xA0, 2 bytes, 2 cycles (R102). -/
def execLdyImm (b : Byte) (s : State) : Result :=
  readImm { cycles := 2 } b doLdy s

/-- LDY `ZP`, opcode 0xA4, 2 bytes, 3 cycles (R102). -/
def execLdyZp (b : Byte) (s : State) : Result :=
  readMem { cycles := 3 } (.zp b) doLdy s

/-- LDY `ZPX`, opcode 0xB4, 2 bytes, 4 cycles (R102). -/
def execLdyZpx (b : Byte) (s : State) : Result :=
  readMem { cycles := 4 } (.zpx b) doLdy s

/-- LDY `ABS`, opcode 0xAC, 3 bytes, 4 cycles (R102). -/
def execLdyAbs (a : Addr) (s : State) : Result :=
  readMem { cycles := 4 } (.abs a) doLdy s

/-- LDY `ABX`, opcode 0xBC, 3 bytes, 4+ cycles (R102). -/
def execLdyAbx (a : Addr) (s : State) : Result :=
  readMem { cycles := 4, pageSensitive := true } (.abx a) doLdy s

/-! Stores: `store(loc, r)`, no flag changed (R103 to R105). -/

/-- STA `ZP`, opcode 0x85, 2 bytes, 3 cycles (R103). -/
def execStaZp (b : Byte) (s : State) : Result :=
  storeMem { cycles := 3 } (.zp b) State.ac s

/-- STA `ZPX`, opcode 0x95, 2 bytes, 4 cycles (R103). -/
def execStaZpx (b : Byte) (s : State) : Result :=
  storeMem { cycles := 4 } (.zpx b) State.ac s

/-- STA `ABS`, opcode 0x8D, 3 bytes, 4 cycles (R103). -/
def execStaAbs (a : Addr) (s : State) : Result :=
  storeMem { cycles := 4 } (.abs a) State.ac s

/-- STA `ABX`, opcode 0x9D, 3 bytes, 5 cycles (R103). -/
def execStaAbx (a : Addr) (s : State) : Result :=
  storeMem { cycles := 5 } (.abx a) State.ac s

/-- STA `ABY`, opcode 0x99, 3 bytes, 5 cycles (R103). -/
def execStaAby (a : Addr) (s : State) : Result :=
  storeMem { cycles := 5 } (.aby a) State.ac s

/-- STA `IZX`, opcode 0x81, 2 bytes, 6 cycles (R103). -/
def execStaIzx (b : Byte) (s : State) : Result :=
  storeMem { cycles := 6 } (.izx b) State.ac s

/-- STA `IZY`, opcode 0x91, 2 bytes, 6 cycles (R103). -/
def execStaIzy (b : Byte) (s : State) : Result :=
  storeMem { cycles := 6 } (.izy b) State.ac s

/-- STX `ZP`, opcode 0x86, 2 bytes, 3 cycles (R104). -/
def execStxZp (b : Byte) (s : State) : Result :=
  storeMem { cycles := 3 } (.zp b) State.x s

/-- STX `ZPY`, opcode 0x96, 2 bytes, 4 cycles (R104). -/
def execStxZpy (b : Byte) (s : State) : Result :=
  storeMem { cycles := 4 } (.zpy b) State.x s

/-- STX `ABS`, opcode 0x8E, 3 bytes, 4 cycles (R104). -/
def execStxAbs (a : Addr) (s : State) : Result :=
  storeMem { cycles := 4 } (.abs a) State.x s

/-- STY `ZP`, opcode 0x84, 2 bytes, 3 cycles (R105). -/
def execStyZp (b : Byte) (s : State) : Result :=
  storeMem { cycles := 3 } (.zp b) State.y s

/-- STY `ZPX`, opcode 0x94, 2 bytes, 4 cycles (R105). -/
def execStyZpx (b : Byte) (s : State) : Result :=
  storeMem { cycles := 4 } (.zpx b) State.y s

/-- STY `ABS`, opcode 0x8C, 3 bytes, 4 cycles (R105). -/
def execStyAbs (a : Addr) (s : State) : Result :=
  storeMem { cycles := 4 } (.abs a) State.y s

/-! Register transfers. -/

/-- `X <- AC; setZN(X)` (R106). -/
def doTax (s : State) : State := { s with x := s.ac }.setZN s.ac

/-- TAX `IMP`, opcode 0xAA, 1 byte, 2 cycles (R106). -/
def execTax (s : State) : Result :=
  implied { cycles := 2 } doTax s

/-- `Y <- AC; setZN(Y)` (R107). -/
def doTay (s : State) : State := { s with y := s.ac }.setZN s.ac

/-- TAY `IMP`, opcode 0xA8, 1 byte, 2 cycles (R107). -/
def execTay (s : State) : Result :=
  implied { cycles := 2 } doTay s

/-- `X <- SP; setZN(X)` (R108). -/
def doTsx (s : State) : State := { s with x := s.sp }.setZN s.sp

/-- TSX `IMP`, opcode 0xBA, 1 byte, 2 cycles (R108). -/
def execTsx (s : State) : Result :=
  implied { cycles := 2 } doTsx s

/-- `AC <- X; setZN(AC)` (R109). -/
def doTxa (s : State) : State := { s with ac := s.x }.setZN s.x

/-- TXA `IMP`, opcode 0x8A, 1 byte, 2 cycles (R109). -/
def execTxa (s : State) : Result :=
  implied { cycles := 2 } doTxa s

/-- `SP <- X`, the one transfer without `setZN` (R110). -/
def doTxs (s : State) : State := { s with sp := s.x }

/-- TXS `IMP`, opcode 0x9A, 1 byte, 2 cycles (R110). -/
def execTxs (s : State) : Result :=
  implied { cycles := 2 } doTxs s

/-- `AC <- Y; setZN(AC)` (R111). -/
def doTya (s : State) : State := { s with ac := s.y }.setZN s.y

/-- TYA `IMP`, opcode 0x98, 1 byte, 2 cycles (R111). -/
def execTya (s : State) : Result :=
  implied { cycles := 2 } doTya s

end Sys2Proof.Machine
end

