-- ==== Sys2Proof/Machine/Logic.lean ====
section
/-!
DEFINITION. Logic, bit test, shifts and rotates (43_logic_shift.md R140 to R147).
-/

namespace Sys2Proof.Machine

/-- `AC <- AC & value(loc); setZN(AC)` (R140). -/
def doAnd (m : Byte) (s : State) : State := { s with ac := s.ac &&& m }.setZN (s.ac &&& m)

/-- AND `IMM`, opcode 0x29, 2 bytes, 2 cycles (R140). -/
def execAndImm (b : Byte) (s : State) : Result :=
  readImm { cycles := 2 } b doAnd s

/-- AND `ZP`, opcode 0x25, 2 bytes, 3 cycles (R140). -/
def execAndZp (b : Byte) (s : State) : Result :=
  readMem { cycles := 3 } (.zp b) doAnd s

/-- AND `ZPX`, opcode 0x35, 2 bytes, 4 cycles (R140). -/
def execAndZpx (b : Byte) (s : State) : Result :=
  readMem { cycles := 4 } (.zpx b) doAnd s

/-- AND `ABS`, opcode 0x2D, 3 bytes, 4 cycles (R140). -/
def execAndAbs (a : Addr) (s : State) : Result :=
  readMem { cycles := 4 } (.abs a) doAnd s

/-- AND `ABX`, opcode 0x3D, 3 bytes, 4+ cycles (R140). -/
def execAndAbx (a : Addr) (s : State) : Result :=
  readMem { cycles := 4, pageSensitive := true } (.abx a) doAnd s

/-- AND `ABY`, opcode 0x39, 3 bytes, 4+ cycles (R140). -/
def execAndAby (a : Addr) (s : State) : Result :=
  readMem { cycles := 4, pageSensitive := true } (.aby a) doAnd s

/-- AND `IZX`, opcode 0x21, 2 bytes, 6 cycles (R140). -/
def execAndIzx (b : Byte) (s : State) : Result :=
  readMem { cycles := 6 } (.izx b) doAnd s

/-- AND `IZY`, opcode 0x31, 2 bytes, 5+ cycles (R140). -/
def execAndIzy (b : Byte) (s : State) : Result :=
  readMem { cycles := 5, pageSensitive := true } (.izy b) doAnd s

/-- `AC <- AC | value(loc); setZN(AC)` (R141). -/
def doOra (m : Byte) (s : State) : State := { s with ac := s.ac ||| m }.setZN (s.ac ||| m)

/-- ORA `IMM`, opcode 0x09, 2 bytes, 2 cycles (R141). -/
def execOraImm (b : Byte) (s : State) : Result :=
  readImm { cycles := 2 } b doOra s

/-- ORA `ZP`, opcode 0x05, 2 bytes, 3 cycles (R141). -/
def execOraZp (b : Byte) (s : State) : Result :=
  readMem { cycles := 3 } (.zp b) doOra s

/-- ORA `ZPX`, opcode 0x15, 2 bytes, 4 cycles (R141). -/
def execOraZpx (b : Byte) (s : State) : Result :=
  readMem { cycles := 4 } (.zpx b) doOra s

/-- ORA `ABS`, opcode 0x0D, 3 bytes, 4 cycles (R141). -/
def execOraAbs (a : Addr) (s : State) : Result :=
  readMem { cycles := 4 } (.abs a) doOra s

/-- ORA `ABX`, opcode 0x1D, 3 bytes, 4+ cycles (R141). -/
def execOraAbx (a : Addr) (s : State) : Result :=
  readMem { cycles := 4, pageSensitive := true } (.abx a) doOra s

/-- ORA `ABY`, opcode 0x19, 3 bytes, 4+ cycles (R141). -/
def execOraAby (a : Addr) (s : State) : Result :=
  readMem { cycles := 4, pageSensitive := true } (.aby a) doOra s

/-- ORA `IZX`, opcode 0x01, 2 bytes, 6 cycles (R141). -/
def execOraIzx (b : Byte) (s : State) : Result :=
  readMem { cycles := 6 } (.izx b) doOra s

/-- ORA `IZY`, opcode 0x11, 2 bytes, 5+ cycles (R141). -/
def execOraIzy (b : Byte) (s : State) : Result :=
  readMem { cycles := 5, pageSensitive := true } (.izy b) doOra s

/-- `AC <- AC ^ value(loc); setZN(AC)` (R142). -/
def doEor (m : Byte) (s : State) : State := { s with ac := s.ac ^^^ m }.setZN (s.ac ^^^ m)

/-- EOR `IMM`, opcode 0x49, 2 bytes, 2 cycles (R142). -/
def execEorImm (b : Byte) (s : State) : Result :=
  readImm { cycles := 2 } b doEor s

/-- EOR `ZP`, opcode 0x45, 2 bytes, 3 cycles (R142). -/
def execEorZp (b : Byte) (s : State) : Result :=
  readMem { cycles := 3 } (.zp b) doEor s

/-- EOR `ZPX`, opcode 0x55, 2 bytes, 4 cycles (R142). -/
def execEorZpx (b : Byte) (s : State) : Result :=
  readMem { cycles := 4 } (.zpx b) doEor s

/-- EOR `ABS`, opcode 0x4D, 3 bytes, 4 cycles (R142). -/
def execEorAbs (a : Addr) (s : State) : Result :=
  readMem { cycles := 4 } (.abs a) doEor s

/-- EOR `ABX`, opcode 0x5D, 3 bytes, 4+ cycles (R142). -/
def execEorAbx (a : Addr) (s : State) : Result :=
  readMem { cycles := 4, pageSensitive := true } (.abx a) doEor s

/-- EOR `ABY`, opcode 0x59, 3 bytes, 4+ cycles (R142). -/
def execEorAby (a : Addr) (s : State) : Result :=
  readMem { cycles := 4, pageSensitive := true } (.aby a) doEor s

/-- EOR `IZX`, opcode 0x41, 2 bytes, 6 cycles (R142). -/
def execEorIzx (b : Byte) (s : State) : Result :=
  readMem { cycles := 6 } (.izx b) doEor s

/-- EOR `IZY`, opcode 0x51, 2 bytes, 5+ cycles (R142). -/
def execEorIzy (b : Byte) (s : State) : Result :=
  readMem { cycles := 5, pageSensitive := true } (.izy b) doEor s

/-- BIT (R143): `Z` from the and, `V` and `N` from bits 6 and 7 of the operand. -/
def doBit (m : Byte) (s : State) : State :=
  { s with z := (s.ac &&& m) == 0x00, v := m.getLsbD 6, n := m.getLsbD 7 }

/-- BIT `ZP`, opcode 0x24, 2 bytes, 3 cycles (R143). -/
def execBitZp (b : Byte) (s : State) : Result :=
  readMem { cycles := 3 } (.zp b) doBit s

/-- BIT `ABS`, opcode 0x2C, 3 bytes, 4 cycles (R143). -/
def execBitAbs (a : Addr) (s : State) : Result :=
  readMem { cycles := 4 } (.abs a) doBit s

/-! Shifts and rotates by one position: the new value, and the state with the bit that fell out in `C`. -/

/-- ASL (R144). -/
def doAsl (w : Byte) (s : State) : Byte × State :=
  let r := w <<< 1
  (r, { s with c := w.getLsbD 7 }.setZN r)

/-- ASL `ACC`, opcode 0x0A, 1 byte, 2 cycles (R144). -/
def execAslAcc (s : State) : Result :=
  modifyAcc { cycles := 2 } doAsl s

/-- ASL `ZP`, opcode 0x06, 2 bytes, 5 cycles (R144). -/
def execAslZp (b : Byte) (s : State) : Result :=
  modifyMem { cycles := 5 } (.zp b) doAsl s

/-- ASL `ZPX`, opcode 0x16, 2 bytes, 6 cycles (R144). -/
def execAslZpx (b : Byte) (s : State) : Result :=
  modifyMem { cycles := 6 } (.zpx b) doAsl s

/-- ASL `ABS`, opcode 0x0E, 3 bytes, 6 cycles (R144). -/
def execAslAbs (a : Addr) (s : State) : Result :=
  modifyMem { cycles := 6 } (.abs a) doAsl s

/-- ASL `ABX`, opcode 0x1E, 3 bytes, 7 cycles (R144). -/
def execAslAbx (a : Addr) (s : State) : Result :=
  modifyMem { cycles := 7 } (.abx a) doAsl s

/-- LSR (R145). -/
def doLsr (w : Byte) (s : State) : Byte × State :=
  let r := w >>> 1
  (r, { s with c := w.getLsbD 0 }.setZN r)

/-- LSR `ACC`, opcode 0x4A, 1 byte, 2 cycles (R145). -/
def execLsrAcc (s : State) : Result :=
  modifyAcc { cycles := 2 } doLsr s

/-- LSR `ZP`, opcode 0x46, 2 bytes, 5 cycles (R145). -/
def execLsrZp (b : Byte) (s : State) : Result :=
  modifyMem { cycles := 5 } (.zp b) doLsr s

/-- LSR `ZPX`, opcode 0x56, 2 bytes, 6 cycles (R145). -/
def execLsrZpx (b : Byte) (s : State) : Result :=
  modifyMem { cycles := 6 } (.zpx b) doLsr s

/-- LSR `ABS`, opcode 0x4E, 3 bytes, 6 cycles (R145). -/
def execLsrAbs (a : Addr) (s : State) : Result :=
  modifyMem { cycles := 6 } (.abs a) doLsr s

/-- LSR `ABX`, opcode 0x5E, 3 bytes, 7 cycles (R145). -/
def execLsrAbx (a : Addr) (s : State) : Result :=
  modifyMem { cycles := 7 } (.abx a) doLsr s

/-- ROL (R146): the old carry becomes bit 0. -/
def doRol (w : Byte) (s : State) : Byte × State :=
  let r := w <<< 1 ||| flagAt s.c 0
  (r, { s with c := w.getLsbD 7 }.setZN r)

/-- ROL `ACC`, opcode 0x2A, 1 byte, 2 cycles (R146). -/
def execRolAcc (s : State) : Result :=
  modifyAcc { cycles := 2 } doRol s

/-- ROL `ZP`, opcode 0x26, 2 bytes, 5 cycles (R146). -/
def execRolZp (b : Byte) (s : State) : Result :=
  modifyMem { cycles := 5 } (.zp b) doRol s

/-- ROL `ZPX`, opcode 0x36, 2 bytes, 6 cycles (R146). -/
def execRolZpx (b : Byte) (s : State) : Result :=
  modifyMem { cycles := 6 } (.zpx b) doRol s

/-- ROL `ABS`, opcode 0x2E, 3 bytes, 6 cycles (R146). -/
def execRolAbs (a : Addr) (s : State) : Result :=
  modifyMem { cycles := 6 } (.abs a) doRol s

/-- ROL `ABX`, opcode 0x3E, 3 bytes, 7 cycles (R146). -/
def execRolAbx (a : Addr) (s : State) : Result :=
  modifyMem { cycles := 7 } (.abx a) doRol s

/-- ROR (R147): the old carry becomes bit 7. -/
def doRor (w : Byte) (s : State) : Byte × State :=
  let r := w >>> 1 ||| flagAt s.c 7
  (r, { s with c := w.getLsbD 0 }.setZN r)

/-- ROR `ACC`, opcode 0x6A, 1 byte, 2 cycles (R147). -/
def execRorAcc (s : State) : Result :=
  modifyAcc { cycles := 2 } doRor s

/-- ROR `ZP`, opcode 0x66, 2 bytes, 5 cycles (R147). -/
def execRorZp (b : Byte) (s : State) : Result :=
  modifyMem { cycles := 5 } (.zp b) doRor s

/-- ROR `ZPX`, opcode 0x76, 2 bytes, 6 cycles (R147). -/
def execRorZpx (b : Byte) (s : State) : Result :=
  modifyMem { cycles := 6 } (.zpx b) doRor s

/-- ROR `ABS`, opcode 0x6E, 3 bytes, 6 cycles (R147). -/
def execRorAbs (a : Addr) (s : State) : Result :=
  modifyMem { cycles := 6 } (.abs a) doRor s

/-- ROR `ABX`, opcode 0x7E, 3 bytes, 7 cycles (R147). -/
def execRorAbx (a : Addr) (s : State) : Result :=
  modifyMem { cycles := 7 } (.abx a) doRor s

end Sys2Proof.Machine
end

