-- ==== Sys2Proof/Machine/System.lean ====
section
/-!
DEFINITION. Stack, flag and system instructions (45_stack_flag_system.md R170 to R183).
-/

namespace Sys2Proof.Machine

/-- `push(AC)` (R170). -/
def doPha (s : State) : State := s.push s.ac

/-- PHA `IMP`, opcode 0x48, 1 byte, 3 cycles (R170). -/
def execPha (s : State) : Result :=
  implied { cycles := 3 } doPha s

/-- `push(P_byte() | 0x30)` (R171). -/
def doPhp (s : State) : State := s.push s.pushedStatus

/-- PHP `IMP`, opcode 0x08, 1 byte, 3 cycles (R171). -/
def execPhp (s : State) : Result :=
  implied { cycles := 3 } doPhp s

/-- `AC <- pull(); setZN(AC)` (R172). -/
def doPla (s : State) : State :=
  let r := s.pull
  { r.2 with ac := r.1 }.setZN r.1

/-- PLA `IMP`, opcode 0x68, 1 byte, 4 cycles (R172). -/
def execPla (s : State) : Result :=
  implied { cycles := 4 } doPla s

/-- `setP(pull())` (R173). -/
def doPlp (s : State) : State :=
  let r := s.pull
  r.2.setP r.1

/-- PLP `IMP`, opcode 0x28, 1 byte, 4 cycles (R173). -/
def execPlp (s : State) : Result :=
  implied { cycles := 4 } doPlp s

/-! Flag instructions: each changes one flag and nothing else. -/

/-- `C <- 0` (R174). -/
def doClc (s : State) : State := { s with c := false }

/-- CLC `IMP`, opcode 0x18, 1 byte, 2 cycles (R174). -/
def execClc (s : State) : Result :=
  implied { cycles := 2 } doClc s

/-- `C <- 1` (R175). -/
def doSec (s : State) : State := { s with c := true }

/-- SEC `IMP`, opcode 0x38, 1 byte, 2 cycles (R175). -/
def execSec (s : State) : Result :=
  implied { cycles := 2 } doSec s

/-- `I <- 0` (R176). -/
def doCli (s : State) : State := { s with i := false }

/-- CLI `IMP`, opcode 0x58, 1 byte, 2 cycles (R176). -/
def execCli (s : State) : Result :=
  implied { cycles := 2 } doCli s

/-- `I <- 1` (R177). -/
def doSei (s : State) : State := { s with i := true }

/-- SEI `IMP`, opcode 0x78, 1 byte, 2 cycles (R177). -/
def execSei (s : State) : Result :=
  implied { cycles := 2 } doSei s

/-- `D <- 0` (R178). -/
def doCld (s : State) : State := { s with d := false }

/-- CLD `IMP`, opcode 0xD8, 1 byte, 2 cycles (R178). -/
def execCld (s : State) : Result :=
  implied { cycles := 2 } doCld s

/-- `D <- 1` (R179). -/
def doSed (s : State) : State := { s with d := true }

/-- SED `IMP`, opcode 0xF8, 1 byte, 2 cycles (R179). -/
def execSed (s : State) : Result :=
  implied { cycles := 2 } doSed s

/-- `V <- 0` (R180). -/
def doClv (s : State) : State := { s with v := false }

/-- CLV `IMP`, opcode 0xB8, 1 byte, 2 cycles (R180). -/
def execClv (s : State) : Result :=
  implied { cycles := 2 } doClv s

/-- NOP (R181): nothing beyond the PC advance and the stall load. -/
def doNop (s : State) : State := s

/-- NOP `IMP`, opcode 0xEA, 1 byte, 2 cycles (R181). -/
def execNop (s : State) : Result :=
  implied { cycles := 2 } doNop s

/-- BRK (R182): the trap entry. -/
def doBrk (s : State) : State := s.takeTrap

/-- BRK `IMP`, opcode 0x00, 1 byte, 7 cycles (R182). -/
def execBrk (s : State) : Result :=
  implied { cycles := 7 } doBrk s

/-- RTI (R183): the trap return. -/
def doRti (s : State) : State := s.returnFromTrap

/-- RTI `IMP`, opcode 0x40, 1 byte, 6 cycles (R183). -/
def execRti (s : State) : Result :=
  implied { cycles := 6 } doRti s

end Sys2Proof.Machine
end

