-- ==== Sys2Proof/Machine/Engine.lean ====
section
/-!
DEFINITION. The engine (40_engine_and_addressing.md R70 to R78): fetch, one tick, `execute(operation)`, and the launch of
the core (70_reset_and_hazards.md R220).
-/

namespace Sys2Proof.Machine

/-- The fetch of R71 and R72: the opcode at `PC`, then exactly the operand bytes its size calls for, 0x00 for the others;
none where the opcode is undefined, before any operand byte is read (R200). -/
def fetch (s : State) : Option Operation :=
  let opcode := s.read s.pc
  match decodeRecord opcode with
  | none => none
  | some d =>
    some {
      opcode := opcode
      b1 := if 2 ≤ d.mode.size then s.read (s.pc + 1) else 0x00
      b2 := if d.mode.size = 3 then s.read (s.pc + 2) else 0x00 }

/-- The tick taken with `stall = 0` (R71): one whole instruction, or `UnknownOpcode` with nothing changed (R75, R201). -/
def readyTransition (s : State) : Result :=
  match (fetch s).bind Operation.instr with
  | some i => exec i s
  | none => .fault (.unknownOpcode s.pc (s.read s.pc))

/-- `tick()` (R70): a Stalled tick only counts down; a Ready tick performs one whole instruction. -/
def tick (s : State) : Result :=
  if 0 < s.stall then .next { s with stall := s.stall - 1 } else readyTransition s

/-- `execute(operation)` (R77): an already-fetched Operation, without the Bus fetch and without the stall load; it may be
called whatever `stall` holds. An undefined opcode faults with the current `PC` (R216). -/
def execute (o : Operation) (s : State) : Result :=
  match o.instr with
  | none => .fault (.unknownOpcode s.pc o.opcode)
  | some i =>
    match exec i s with
    | .next t => .next { t with stall := s.stall }
    | .fault f => .fault f
    | .refused r => .refused r

/-- Bytes a loader seeds, in order; a later byte at the same address replaces an earlier one. -/
def Memory.seed (m : Memory) (image : List (Addr × Byte)) : Memory :=
  image.foldl (fun acc cell => Memory.writeKey acc cell.1.toNat cell.2) m

/-- Power-on with a launch state (R29, R220): the registers and flags as given, `stall` 0, memory the seeded image and 0
elsewhere. -/
def State.launch (p : LaunchParams) : State where
  pc := p.initPC
  ac := p.initAC
  x := p.initX
  y := p.initY
  sp := p.initSP
  n := p.initN
  v := p.initV
  b := p.initB
  d := p.initD
  i := p.initI
  z := p.initZ
  c := p.initC
  stall := Config.initStall
  mem := Memory.seed [] p.image

/-- A list of bytes stored at ascending addresses, modulo 65536. -/
def State.storeBytes (s : State) (a : Addr) : List Byte → State
  | [] => s
  | w :: rest => State.storeBytes (s.write a w) (a + 1) rest

end Sys2Proof.Machine
end

