-- ==== Sys2Proof/Machine/Step.lean ====
section
/-!
DEFINITION. One step is one tick (40_engine_and_addressing.md R70), and where the host places the next instruction.
-/

namespace Sys2Proof.Machine

/-- One step of the machine: `tick()`. -/
def step (s : State) : Host.Outcome State Fault Refusal := tick s

/-- `s` with the instruction whose bits are `w` stored where the next fetch reads: three bytes from `PC` on (the longest
instruction, R50), and `stall` 0, since a fetch happens only in a Ready tick (R70). Log entries 4 and 10. -/
def State.withFetchWord (s : State) (nbits w : Nat) : State :=
  let t := s.storeBytes s.pc [tableByte nbits w 0, tableByte nbits w 1, tableByte nbits w 2]
  { t with stall := 0 }

end Sys2Proof.Machine
end

