-- ==== Sys2Proof/Machine/Timing.lean ====
section
/-!
DEFINITION. The cycle timer's decode half as a mechanism (30_encoding.md R59, R60) and the total cost of an instruction
in a state (40_engine_and_addressing.md R74, 70_reset_and_hazards.md R228). The meanings carry the numbers of the tables
of R55 and 41 to 45; Laws and the obligations say that the mechanism gives the same ones.
-/

namespace Sys2Proof

/-- The base table of the thirteen modes (R59). -/
def Mode.baseTiming : Mode → Timing
  | .acc | .imm | .imp => { cycles := 2 }
  | .rel => { cycles := 2, branchSensitive := true }
  | .zp => { cycles := 3 }
  | .zpx | .zpy | .abs | .abx => { cycles := 4 }
  | .aby => { cycles := 4, pageSensitive := true }
  | .ind => { cycles := 5 }
  | .izy => { cycles := 5, pageSensitive := true }
  | .izx => { cycles := 6 }

/-- The read-modify-write mnemonics (R60, R95). -/
def Mnemonic.isReadModifyWrite : Mnemonic → Bool
  | .asl | .lsr | .rol | .ror | .inc | .dec => true
  | _ => false

/-- Layer 1 of R60. -/
def Timing.layer1 (t : Timing) (m : Mnemonic) (mode : Mode) : Timing :=
  if m.isReadModifyWrite && mode != .acc then
    { t with cycles := t.cycles + (if mode = .abx then 3 else 2), pageSensitive := false }
  else if mode = .abx && m != .sta then { t with pageSensitive := true }
  else t

/-- Layer 2 of R60. -/
def Timing.layer2 (t : Timing) (m : Mnemonic) (mode : Mode) : Timing :=
  match m, mode with
  | .php, _ | .pha, _ => { t with cycles := t.cycles + 1 }
  | .plp, _ | .pla, _ | .jsr, _ => { t with cycles := t.cycles + 2 }
  | .rti, _ | .rts, _ => { t with cycles := t.cycles + 4 }
  | .jmp, .abs => { t with cycles := 3 }
  | .brk, _ => { t with cycles := t.cycles + 5 }
  | .sta, .abx | .sta, .aby => { t with cycles := 5, pageSensitive := false }
  | .sta, .izy => { t with cycles := 6, pageSensitive := false }
  | _, _ => t

/-- The cost of an opcode, computed in two layers over the mode's base entry (R60). -/
def timingOf (m : Mnemonic) (mode : Mode) : Timing :=
  (mode.baseTiming.layer1 m mode).layer2 m mode

/-- The final cost record of an instruction. -/
def Instr.timing (i : Instr) : Timing := timingOf i.mnemonic i.operand.mode

/-- Whether the branch of this mnemonic is taken (44_branch_jump.md, table of R150 to R157); false for every other. -/
def Mnemonic.takesBranch (m : Mnemonic) (s : Machine.State) : Bool :=
  match m with
  | .bcc => !s.c
  | .bcs => s.c
  | .beq => s.z
  | .bmi => s.n
  | .bne => !s.z
  | .bpl => !s.n
  | .bvc => !s.v
  | .bvs => s.v
  | _ => false

/-- The state the resolver and the handler see (R73): `PC` advanced by the size. -/
def Instr.atOperand (i : Instr) (s : Machine.State) : Machine.State := s.advance i.size

/-- The address a memory operand resolves to, with its page-crossed bit; none for `IMP`, `ACC` and `IMM` (R79). -/
def Instr.location (i : Instr) (s : Machine.State) : Option Machine.Resolved :=
  match i.operand with
  | .mem m => some (m.resolve (i.atOperand s))
  | .imp | .acc | .imm _ => none

/-- The value a read or read-modify-write instruction reads (`value(loc)`, R79, R93): the immediate, `AC`, or the byte at
the resolved address; none for `IMP`. -/
def Instr.operandValue (i : Instr) (s : Machine.State) : Option Byte :=
  match i.operand with
  | .imp => none
  | .acc => some s.ac
  | .imm b => some b
  | .mem m => some (s.read (m.resolve (i.atOperand s)).addr)

/-- Whether the resolved address crossed a page (R94). -/
def Instr.crossed (i : Instr) (s : Machine.State) : Bool :=
  ((i.location s).map (fun loc => loc.crossed)).getD false

/-- Whether a branch target lies in another page than the next instruction (R149). -/
def Instr.targetCrosses (i : Instr) (s : Machine.State) : Bool :=
  ((i.location s).map (fun loc => Machine.hi loc.addr != Machine.hi (i.atOperand s).pc)).getD false

/-- The total cost in ticks of an instruction executed in state `s` (R74, R228). -/
def Instr.ticks (i : Instr) (s : Machine.State) : Nat :=
  i.timing.cycles + i.timing.extra (i.crossed s) (i.mnemonic.takesBranch s) (i.targetCrosses s)

end Sys2Proof
end

