-- ==== Sys2Proof/Machine/Bus.lean ====
section
/-!
DEFINITION. The Bus accesses of one Ready transition, in order (20_memory.md R48), as a view of an instruction in a
state: the opcode, the operand bytes, the pointer reads low byte first, the operand read, the handler's own stack and
vector accesses, the write. Each is made exactly once (D15). The machine keeps no such list in its state (log entry 9);
the obligations say that it explains what exec does to memory.
-/

namespace Sys2Proof.Machine

/-- One access of one byte (R38): an address and the byte read or written. -/
inductive Access where
  | rd (a : Addr) (w : Byte)
  | wr (a : Addr) (w : Byte)
  deriving DecidableEq, Repr

/-- A read as the Bus answers it in state `s`. -/
def State.rdAt (s : State) (a : Addr) : Access := .rd a (s.read a)

/-- The reads of the fetch: the opcode and exactly `size - 1` operand bytes (R48 steps 1 and 3, R72). -/
def fetchAccesses (size : Nat) (s : State) : List Access :=
  (List.range size).map (fun k => s.rdAt (s.pc + BitVec.ofNat 16 k))

/-- What the accesses do to a memory: a write replaces a byte, a read changes nothing (R31, R32). -/
def Access.apply (m : Memory) : Access → Memory
  | .rd _ _ => m
  | .wr a w => Memory.writeKey m a.toNat w

/-- Whether a list of accesses can happen in this order from a memory: every read gives the byte most recently written,
or what the memory holds (R42). -/
def Access.consistent : Memory → List Access → Bool
  | _, [] => true
  | m, .rd a w :: rest => Memory.readKey m a.toNat == w && Access.consistent m rest
  | m, .wr a w :: rest => Access.consistent (Memory.writeKey m a.toNat w) rest

end Sys2Proof.Machine

namespace Sys2Proof

/-- The pointer reads of a mode, low byte first (R48 step 4; R89 to R91). -/
def MemOperand.pointerReads (m : MemOperand) (s : Machine.State) : List Machine.Access :=
  match m with
  | .ind p => [s.rdAt p, s.rdAt (Machine.indirectHigh p)]
  | .izx b => [s.rdAt (Machine.zeroPage (b + s.x)), s.rdAt (Machine.zeroPageHigh (b + s.x))]
  | .izy b => [s.rdAt (Machine.zeroPage b), s.rdAt (Machine.zeroPageHigh b)]
  | .zp _ | .zpx _ | .zpy _ | .abs _ | .abx _ | .aby _ | .rel _ => []

/-- The accesses at the operand address, by the classes of R95, and the pushes of JSR (R159). -/
def Mnemonic.operandAccesses (m : Mnemonic) (a : Addr) (s : Machine.State) : List Machine.Access :=
  match m with
  | .lda | .ldx | .ldy | .adc | .sbc | .cmp | .cpx | .cpy | .and | .ora | .eor | .bit => [s.rdAt a]
  | .sta => [.wr a s.ac]
  | .stx => [.wr a s.x]
  | .sty => [.wr a s.y]
  | .asl => [s.rdAt a, .wr a (Machine.doAsl (s.read a) s).1]
  | .lsr => [s.rdAt a, .wr a (Machine.doLsr (s.read a) s).1]
  | .rol => [s.rdAt a, .wr a (Machine.doRol (s.read a) s).1]
  | .ror => [s.rdAt a, .wr a (Machine.doRor (s.read a) s).1]
  | .inc => [s.rdAt a, .wr a (Machine.doInc (s.read a) s).1]
  | .dec => [s.rdAt a, .wr a (Machine.doDec (s.read a) s).1]
  | .jsr => [.wr (Machine.stackAddr s.sp) (Machine.hi (s.pc - 1)),
      .wr (Machine.stackAddr (s.sp - 1)) (Machine.lo (s.pc - 1))]
  | .jmp | .bcc | .bcs | .beq | .bmi | .bne | .bpl | .bvc | .bvs => []
  | .tax | .tay | .tsx | .txa | .txs | .tya | .inx | .iny | .dex | .dey | .rts | .pha | .php | .pla | .plp
  | .clc | .sec | .cli | .sei | .cld | .sed | .clv | .nop | .brk | .rti => []

/-- The stack and vector accesses of the Implied instructions, in the order of their rules (R48 step 6; R160, R170 to
R173, R182, R183). BRK reads its vector after the pushes, which cannot reach it (R182). -/
def Mnemonic.stackAccesses (m : Mnemonic) (s : Machine.State) : List Machine.Access :=
  match m with
  | .pha => [.wr (Machine.stackAddr s.sp) s.ac]
  | .php => [.wr (Machine.stackAddr s.sp) s.pushedStatus]
  | .pla | .plp => [s.rdAt (Machine.stackAddr (s.sp + 1))]
  | .rts => [s.rdAt (Machine.stackAddr (s.sp + 1)), s.rdAt (Machine.stackAddr (s.sp + 1 + 1))]
  | .rti => [s.rdAt (Machine.stackAddr (s.sp + 1)), s.rdAt (Machine.stackAddr (s.sp + 1 + 1)),
      s.rdAt (Machine.stackAddr (s.sp + 1 + 1 + 1))]
  | .brk => [.wr (Machine.stackAddr s.sp) (Machine.hi (s.pc + 1)),
      .wr (Machine.stackAddr (s.sp - 1)) (Machine.lo (s.pc + 1)),
      .wr (Machine.stackAddr (s.sp - 1 - 1)) s.pushedStatus,
      s.rdAt Config.brkVector, s.rdAt (Config.brkVector + 1)]
  | .tax | .tay | .tsx | .txa | .txs | .tya | .inx | .iny | .dex | .dey
  | .clc | .sec | .cli | .sei | .cld | .sed | .clv | .nop => []
  | .lda | .ldx | .ldy | .sta | .stx | .sty | .adc | .sbc | .cmp | .cpx | .cpy | .inc | .dec | .and | .ora | .eor
  | .bit | .asl | .lsr | .rol | .ror | .bcc | .bcs | .beq | .bmi | .bne | .bpl | .bvc | .bvs | .jmp | .jsr => []

/-- The accesses after the fetch. -/
def Instr.bodyAccesses (i : Instr) (s : Machine.State) : List Machine.Access :=
  let s1 := i.atOperand s
  match i.operand with
  | .imp => i.mnemonic.stackAccesses s1
  | .acc | .imm _ => []
  | .mem m => m.pointerReads s1 ++ i.mnemonic.operandAccesses (m.resolve s1).addr s1

/-- All accesses of one Ready transition that executes `i` in state `s`, in order (R48). -/
def Instr.accesses (i : Instr) (s : Machine.State) : List Machine.Access :=
  Machine.fetchAccesses i.size s ++ i.bodyAccesses s

end Sys2Proof
end

