-- ==== Sys2Proof/Safety.lean ====
section
/-!
DEFINITION. What claims are stated in: the machine's invariant, the end of a run by the spec's convention
(70_reset_and_hazards.md R232), a run that raises no `UnknownOpcode` (60_exceptions.md R202), and the words in which a
statement says what one instruction changes and what it leaves alone.
-/

namespace Sys2Proof

/-- The invariant of the machine: the stall counter stays within its range (10_state.md R25) and memory keeps its
canonical form. -/
def Inv (s : Machine.State) : Prop :=
  s.stall ≤ Config.stallMax ∧ Machine.Memory.wf s.mem

/-- `k` ticks from `s` end in `t`. -/
def RunsTo (k : Nat) (s t : Machine.State) : Prop :=
  core.run k s = .next t

/-- The run that ends at `stop` is complete in `s`: the engine is Ready with `PC` there (R232). -/
def Complete (stop : Addr) (s : Machine.State) : Prop :=
  s.stall = 0 ∧ s.pc = stop

/-- `k` ticks from `s` end in the fault `f`. -/
def FaultsIn (k : Nat) (s : Machine.State) (f : Machine.Fault) : Prop :=
  core.run k s = .fault f

/-- No number of ticks from `s` raises a fault (R202: a run that faults is never a completed run). -/
def NeverFaults (s : Machine.State) : Prop :=
  ∀ k f, core.run k s ≠ .fault f

/-- Everything but `stall` is the same (R232: "the architectural state (everything but `stall`)"). -/
def SameButStall (s t : Machine.State) : Prop :=
  { s with stall := 0 } = { t with stall := 0 }

/-- What every instruction that transfers no control does to `PC` and `stall`: `PC` advanced by the size (R73), `stall` the
total cost less one (R74); nothing else changed. -/
def Instr.sequential (i : Instr) (s : Machine.State) : Machine.State :=
  { s with pc := s.pc + BitVec.ofNat 16 i.size, stall := i.ticks s - 1 }

/-- `t` is `base` with one byte of memory replaced: the byte at `a` reads `w`, every other byte reads as before. -/
def WritesOnly (base : Machine.State) (a : Addr) (w : Byte) (t : Machine.State) : Prop :=
  t = { base with mem := t.mem } ∧ ∀ b, t.read b = if b = a then w else base.read b

/-- A read-modify-write instruction rewrites its operand by `new` and its flags by `flags`, both of the byte it read: `AC`
itself in mode `ACC`, the byte at the resolved address, and no other byte, in a memory mode (R95). -/
def Rewrites (i : Instr) (s : Machine.State) (new : Byte → Byte) (flags : Byte → Machine.State → Machine.State) : Prop :=
  (i.operand = .acc → Machine.exec i s = .next { flags s.ac (i.sequential s) with ac := new s.ac }) ∧
    (i.operand ≠ .acc → ∃ loc t, i.location s = some loc ∧ Machine.exec i s = .next t ∧
      WritesOnly (flags (s.read loc.addr) (i.sequential s)) loc.addr (new (s.read loc.addr)) t)

/-- The bytes of instruction `i` stand where the next fetch reads (R50: consecutive addresses, modulo 65536). -/
def StandsAtPC (i : Instr) (s : Machine.State) : Prop :=
  ∀ k w, (encode i)[k]? = some w → s.read (s.pc + BitVec.ofNat 16 k) = w

end Sys2Proof
end

