-- ==== Sys2Proof/WellFormed.lean ====
section
/-!
DEFINITION. Well-formedness of what the host may hand to the core, an Operation (40_engine_and_addressing.md R77): its
opcode is one of the 151 defined values (R55, R57) and a byte its size does not call for is 0x00 (R71). The operand
widths of an `Instr` are carried by its types (30_encoding.md R51), so every `Instr` is well-formed once its Operation
is; Laws/Decode.lean proves that it always is.
-/

namespace Sys2Proof

/-- The opcode is defined (R55). -/
def Operation.opcodeDefined (o : Operation) : Bool :=
  (decodeRecord o.opcode).isSome

/-- The size of the Operation's mode; an undefined opcode has none (R75: "the size is unknown"). -/
def Operation.size? (o : Operation) : Option Nat :=
  (decodeRecord o.opcode).map (fun d => d.mode.size)

/-- `b1` is 0x00 unless the size calls for it (R71). -/
def Operation.firstByteFits (o : Operation) : Bool :=
  o.b1 == 0x00 || (o.size?.map (fun n => decide (2 ≤ n))).getD false

/-- `b2` is 0x00 unless the size calls for it (R71). -/
def Operation.secondByteFits (o : Operation) : Bool :=
  o.b2 == 0x00 || (o.size?.map (fun n => decide (3 ≤ n))).getD false

/-- An Operation as a fetch builds it. -/
def Operation.wf (o : Operation) : Bool :=
  o.opcodeDefined && o.firstByteFits && o.secondByteFits

/-- A well-formed instruction: the Operation it stands for is well-formed. -/
def Instr.wf (i : Instr) : Bool :=
  i.toOperation.wf

end Sys2Proof
end

