-- ==== Sys2Proof/Certificates/Slice0/Obligations.lean ====
section
/-!
DEFINITION. The statements for the provers, each from the numbered rules of spec/ that its entry in OBLIGATIONS.json
cites. Statements that rest on a choice of the model say so.
-/

open Sys2Proof Sys2Proof.Machine

/-- For every instruction, with every operand at every value its encoding admits, and every list of bytes after it:
decoding the bytes of the instruction gives the instruction and leaves the rest. -/
def Obligations.DecodeOfEncodeIsTheInstruction : Prop :=
  ∀ (i : Instr) (rest : List Byte), decode (encode i ++ rest) = .ok (i, rest)

/-- Each byte sequence has one meaning: if the decoder answers an instruction, the bytes it consumed are that
instruction's encoding. -/
def Obligations.EncodeOfDecodeIsTheBytes : Prop :=
  ∀ (bytes rest : List Byte) (i : Instr), decode bytes = .ok (i, rest) → bytes = encode i ++ rest

/-- The 105 values listed in 30_encoding.md R57 are undefined: the decoder answers UnknownOpcode for each of them
whatever follows, gives no instruction for it, and a Ready tick on it faults and executes nothing; every other opcode
value is defined. -/
def Obligations.UndefinedOpcodesAreExactlyTheListed : Prop :=
  let undefinedValues : List Byte := [
      0x02, 0x03, 0x04, 0x07, 0x0B, 0x0C, 0x0F, 0x12, 0x13, 0x14, 0x17, 0x1A, 0x1B, 0x1C, 0x1F, 0x22, 0x23, 0x27,
      0x2B, 0x2F, 0x32, 0x33, 0x34, 0x37, 0x3A, 0x3B, 0x3C, 0x3F, 0x42, 0x43, 0x44, 0x47, 0x4B, 0x4F, 0x52, 0x53,
      0x54, 0x57, 0x5A, 0x5B, 0x5C, 0x5F, 0x62, 0x63, 0x64, 0x67, 0x6B, 0x6F, 0x72, 0x73, 0x74, 0x77, 0x7A, 0x7B,
      0x7C, 0x7F, 0x80, 0x82, 0x83, 0x87, 0x89, 0x8B, 0x8F, 0x92, 0x93, 0x97, 0x9B, 0x9C, 0x9E, 0x9F, 0xA3, 0xA7,
      0xAB, 0xAF, 0xB2, 0xB3, 0xB7, 0xBB, 0xBF, 0xC2, 0xC3, 0xC7, 0xCB, 0xCF, 0xD2, 0xD3, 0xD4, 0xD7, 0xDA, 0xDB,
      0xDC, 0xDF, 0xE2, 0xE3, 0xE7, 0xEB, 0xEF, 0xF2, 0xF3, 0xF4, 0xF7, 0xFA, 0xFB, 0xFC, 0xFF]
  undefinedValues.length = 105 ∧
    (∀ (op : Byte) (rest : List Byte), op ∈ undefinedValues ↔ decode (op :: rest) = .error (.unknownOpcode op)) ∧
    (∀ op b1 b2 : Byte, op ∈ undefinedValues ↔ instrOf op b1 b2 = none) ∧
    (∀ (s : State), s.stall = 0 → s.read s.pc ∈ undefinedValues →
      step s = .fault (.unknownOpcode s.pc (s.read s.pc)))

/-- The opcode table has 151 rows with 151 different opcodes and 56 different mnemonics, and for every opcode byte and
operand bytes the decoded instruction carries the opcode, mnemonic and mode of the row of that opcode. -/
def Obligations.TableAndDecoderAgree : Prop :=
  opcodeTable.length = Config.nOpcodes ∧ (opcodeTable.map OpRecord.opcode).Nodup ∧
    ((opcodeTable.map OpRecord.mnemonic).dedup).length = 56 ∧
    ∀ op b1 b2 : Byte,
      (instrOf op b1 b2).map (fun i => (i.opcode, i.mnemonic, i.operand.mode)) =
        (decodeRecord op).map (fun d => (op, d.mnemonic, d.mode))

/-- The encoding of an instruction has 2 bytes in the single-operand-byte modes, 3 bytes in the 16-bit operand modes
and 1 byte in Implied and Accumulator mode, and BRK has 1. -/
def Obligations.SizeIsAFunctionOfTheMode : Prop :=
  (∀ i : Instr, (encode i).length =
      match i.operand.mode with
      | .imm | .zp | .zpx | .zpy | .rel | .izx | .izy => 2
      | .abs | .abx | .aby | .ind => 3
      | .imp | .acc => 1) ∧
    (encode .brk).length = 1

/-- For all 151 rows the cost computed from the mode's base entry by the two layers of R60 is the row's cost, and the
base entries are those of R59. -/
def Obligations.TwoLayerCostGivesTheTable : Prop :=
  (∀ r ∈ opcodeTable, timingOf r.mnemonic r.mode = r.timing) ∧
    ([Mode.acc, .imm, .imp, .rel, .zp, .zpx, .zpy, .abs, .abx, .aby, .ind, .izy, .izx].map Mode.baseTiming =
      [⟨2, false, false⟩, ⟨2, false, false⟩, ⟨2, false, false⟩, ⟨2, false, true⟩, ⟨3, false, false⟩, ⟨4, false, false⟩,
        ⟨4, false, false⟩, ⟨4, false, false⟩, ⟨4, false, false⟩, ⟨4, true, false⟩, ⟨5, false, false⟩, ⟨5, true, false⟩,
        ⟨6, false, false⟩])

/-- A defined opcode is page-sensitive exactly when it is one of the 23 listed, branch-sensitive exactly when it is
one of the 8 listed, never both, and the stall an instruction loads adds the page and branch penalties by the bits of
its own opcode's row. -/
def Obligations.PenaltyBitsAreTheListedOpcodes : Prop :=
  let pageOpcodes : List Byte := [
      0xBD, 0xBC, 0x7D, 0xFD, 0xDD, 0x3D, 0x1D, 0x5D, 0xB9, 0xBE, 0x79, 0xF9, 0xD9, 0x39, 0x19, 0x59, 0xB1, 0x71,
      0xF1, 0xD1, 0x31, 0x11, 0x51]
  let branchOpcodes : List Byte := [0x10, 0x30, 0x50, 0x70, 0x90, 0xB0, 0xD0, 0xF0]
  pageOpcodes.length = 23 ∧
    (∀ op d, decodeRecord op = some d →
      (d.timing.pageSensitive = true ↔ op ∈ pageOpcodes) ∧
        (d.timing.branchSensitive = true ↔ op ∈ branchOpcodes) ∧
        ¬(d.timing.pageSensitive = true ∧ d.timing.branchSensitive = true)) ∧
    ∀ (i : Instr) (s : State), ∃ d t, decodeRecord i.opcode = some d ∧ exec i s = .next t ∧
      t.stall = d.timing.cycles - 1 +
        ((if d.timing.pageSensitive ∧ i.crossed s then 1 else 0) +
          (if d.timing.branchSensitive ∧ i.mnemonic.takesBranch s then
            1 + (if i.targetCrosses s then 1 else 0) else 0))

/-- Applied to the 151 defined opcodes the classification of R56 gives the table's mode, and the undefined values it
also matches are exactly the 27 listed. -/
def Obligations.PatternsGiveTheModeColumn : Prop :=
  (∀ r ∈ opcodeTable, modeByPattern r.opcode = some r.mode) ∧
    ((List.range 256).filter (fun op =>
      (decodeRecord (BitVec.ofNat 8 op)).isNone && (modeByPattern (BitVec.ofNat 8 op)).isSome)) =
      [0x02, 0x04, 0x0C, 0x14, 0x1C, 0x22, 0x34, 0x3C, 0x42, 0x44, 0x54, 0x5C, 0x62, 0x64, 0x74, 0x7C, 0x80, 0x82,
        0x89, 0x9C, 0x9E, 0xC2, 0xD4, 0xDC, 0xE2, 0xF4, 0xFC]

/-- One written-out word per mode decodes to its instruction, the operand bytes low byte first. -/
def Obligations.KnownWordsDecode : Prop :=
  decode [0x18] = .ok (.clc, []) ∧ decode [0x0A] = .ok (.aslAcc, []) ∧ decode [0xA9, 0x10] = .ok (.ldaImm 0x10, []) ∧
    decode [0xA5, 0x10] = .ok (.ldaZp 0x10, []) ∧ decode [0xB5, 0x10] = .ok (.ldaZpx 0x10, []) ∧
    decode [0xB6, 0x10] = .ok (.ldxZpy 0x10, []) ∧ decode [0xAD, 0x34, 0x12] = .ok (.ldaAbs 0x1234, []) ∧
    decode [0xBD, 0x34, 0x12] = .ok (.ldaAbx 0x1234, []) ∧ decode [0xB9, 0x34, 0x12] = .ok (.ldaAby 0x1234, []) ∧
    decode [0x6C, 0x34, 0x12] = .ok (.jmpInd 0x1234, []) ∧ decode [0xA1, 0x10] = .ok (.ldaIzx 0x10, []) ∧
    decode [0xB1, 0x10] = .ok (.ldaIzy 0x10, []) ∧ decode [0xD0, 0x0E] = .ok (.bne 0x0E, []) ∧
    decode [0x6D, 0x34, 0x12] = .ok (.adcAbs 0x1234, []) ∧ decode [0x61, 0xB4] = .ok (.adcIzx 0xB4, []) ∧
    decode [0x71, 0xB4] = .ok (.adcIzy 0xB4, [])

/-- Below 0x80 the offset is added, from 0x80 its magnitude 256 - offset is subtracted, modulo 65536; as an integer
the byte is two's-complement signed. -/
def Obligations.WithOffsetIsSignedAndWraps : Prop :=
  ∀ (base : Addr) (off : Byte),
    withOffset base off =
        (if off.toNat < 0x80 then base + BitVec.ofNat 16 off.toNat else base - BitVec.ofNat 16 (256 - off.toNat)) ∧
      ((withOffset base off).toNat : Int) = ((base.toNat : Int) + off.toInt) % 65536

/-- For every state (PC already advanced): the address of each of the ten memory modes as a number computed from the
operand bytes, X, Y, PC and the pointer bytes in memory, with zero-page sums modulo 256 and all others modulo 65536;
crossed is set only by ABX, ABY and IZY, exactly when the high byte of the wrapped result differs from the base's,
equivalently when low byte plus index exceeds 0xFF. -/
def Obligations.AddressingModesResolve : Prop :=
  ∀ (s : State) (b : Byte) (a : Addr),
    let word (low high : Nat) : Nat :=
      (s.read (BitVec.ofNat 16 low)).toNat + 256 * (s.read (BitVec.ofNat 16 high)).toNat
    let plain (m : MemOperand) (n : Nat) : Prop := (m.resolve s).addr.toNat = n ∧ (m.resolve s).crossed = false
    let indexedBy (m : MemOperand) (base index : Nat) : Prop :=
      (m.resolve s).addr.toNat = (base + index) % 65536 ∧
        ((m.resolve s).crossed = true ↔ (base + index) % 65536 / 256 ≠ base / 256) ∧
        ((m.resolve s).crossed = true ↔ 0xFF < base % 256 + index)
    plain (.zp b) b.toNat ∧
      plain (.zpx b) ((b.toNat + s.x.toNat) % 256) ∧
      plain (.zpy b) ((b.toNat + s.y.toNat) % 256) ∧
      plain (.abs a) a.toNat ∧
      indexedBy (.abx a) a.toNat s.x.toNat ∧
      indexedBy (.aby a) a.toNat s.y.toNat ∧
      plain (.ind a) (word a.toNat ((a.toNat + 1) % 65536)) ∧
      plain (.izx b) (word ((b.toNat + s.x.toNat) % 256) ((b.toNat + s.x.toNat + 1) % 256)) ∧
      indexedBy (.izy b) (word b.toNat ((b.toNat + 1) % 256)) s.y.toNat ∧
      ((((MemOperand.rel b).resolve s).addr.toNat : Int) = ((s.pc.toNat : Int) + b.toInt) % 65536 ∧
        ((MemOperand.rel b).resolve s).crossed = false)

/-- The canonical form is unique: equal memories are equal data (the representation is the model's, log entry 3). -/
def Obligations.CanonicalMemoriesAreEqualData : Prop :=
  ∀ s t : State, Memory.wf s.mem → Memory.wf t.mem → (∀ a : Addr, s.read a = t.read a) → s.mem = t.mem

/-- For every launch the registers and flags are the parameters, the engine is Ready, and every address reads the byte
the loader seeded there last, or 0 if it seeded none. -/
def Obligations.LaunchStateIsTheParameters : Prop :=
  ∀ p : LaunchParams,
    (∃ m, State.launch p = {
      pc := p.initPC, ac := p.initAC, x := p.initX, y := p.initY, sp := p.initSP, n := p.initN, v := p.initV
      b := p.initB, d := p.initD, i := p.initI, z := p.initZ, c := p.initC, stall := 0, mem := m }) ∧
    ∀ a : Addr, (State.launch p).read a = ((p.image.reverse.find? (fun cell => cell.1 == a)).map Prod.snd).getD 0x00

/-- Reset has stall 0 and reads 0 at every address; it is the launch with the default parameters, whose zero registers
and flags are the model's choice among the values the spec leaves open (log entries 1, 2 and 3). Whatever the seeded
image holds at 0xFFFC and 0xFFFD, a launch has PC, SP and I as the host gave them (R222). -/
def Obligations.ResetIsReadyAndReadsZero : Prop :=
  State.reset = State.launch {} ∧ State.reset.stall = 0 ∧ (∀ a : Addr, State.reset.read a = 0x00) ∧
    ∀ p : LaunchParams,
      (State.launch p).pc = p.initPC ∧ (State.launch p).sp = p.initSP ∧ (State.launch p).i = p.initI

/-- stall is within its range (R25) and memory is canonical at reset. That memory is held as a canonical list, and
that reset seeds no byte, is the model's choice (log entry 3, DESIGN CHOICE). -/
def Obligations.ResetMeetsTheInvariant : Prop :=
  Inv State.reset

/-- Whatever registers, flags and image the host launches with, stall is within its range (R25) and memory is
canonical. That memory is held as a canonical list is the model's own representation (log entry 3, DESIGN CHOICE). -/
def Obligations.EveryLaunchMeetsTheInvariant : Prop :=
  ∀ p : LaunchParams, Inv (State.launch p)

/-- From every state that meets the invariant, if a tick answers a next state, that state meets it: stall stays within
its range (R25) and memory canonical. That memory is held as a canonical list is the model's own representation (log
entry 3, DESIGN CHOICE). -/
def Obligations.StepKeepsTheInvariant : Prop :=
  ∀ s t : State, Inv s → step s = .next t → Inv t

/-- With stall above 0 a tick answers the same state with stall one lower; with stall 0 it performs the Ready
transition. -/
def Obligations.StalledTickOnlyCountsDown : Prop :=
  ∀ s : State,
    (0 < s.stall → step s = .next { s with stall := s.stall - 1 }) ∧ (s.stall = 0 → step s = readyTransition s)

/-- When the engine is Ready and the bytes of instruction i stand at PC (wrapping modulo 65536), the step is exec of i
at that state; exec itself advances PC and loads stall. -/
def Obligations.StepRunsTheDecodedInstruction : Prop :=
  ∀ (s : State) (i : Instr), s.stall = 0 → StandsAtPC i s → step s = exec i s

/-- A step faults if and only if the engine is Ready and the byte at PC is an undefined opcode; the fault carries the
PC and the byte; no step refuses; execute of an Operation faults only on an undefined opcode. -/
def Obligations.UnknownOpcodeIsTheOnlyFault : Prop :=
  (∀ (s : State) (f : Fault), step s = .fault f ↔
      s.stall = 0 ∧ decodeRecord (s.read s.pc) = none ∧ f = .unknownOpcode s.pc (s.read s.pc)) ∧
    (∀ (s : State) (r : Refusal), step s ≠ .refused r) ∧
    ∀ (o : Operation) (s : State) (f : Fault), execute o s = .fault f ↔
      decodeRecord o.opcode = none ∧ f = .unknownOpcode s.pc o.opcode

/-- No handler faults or refuses: for every instruction and state exec answers a next state. -/
def Obligations.EveryInstructionCompletes : Prop :=
  ∀ (i : Instr) (s : State), ∃ t, exec i s = .next t

/-- The Operation a fetch builds is well-formed and its opcode is the byte at PC; a fetch builds none exactly when
that byte is undefined, and what it builds always decodes to an instruction. -/
def Obligations.FetchBuildsAWellFormedOperation : Prop :=
  ∀ s : State,
    (fetch s = none ↔ decodeRecord (s.read s.pc) = none) ∧
      ∀ o, fetch s = some o → o.wf = true ∧ o.opcode = s.read s.pc ∧ ∃ i, o.instr = some i ∧ i.toOperation = o

/-- From a Ready state where the bytes of i stand at PC: after the k-th of its n ticks the state is the one exec
answers with stall n - k; n is the decoded cost plus the page and branch penalties and lies between 2 and 7, so the
engine is Ready again exactly after n ticks. -/
def Obligations.InstructionOccupiesExactlyItsTicks : Prop :=
  ∀ (s : State) (i : Instr), s.stall = 0 → StandsAtPC i s →
    ∃ d t n, decodeRecord i.opcode = some d ∧ exec i s = .next t ∧
      n = d.timing.cycles + ((if d.timing.pageSensitive ∧ i.crossed s then 1 else 0) +
        (if d.timing.branchSensitive ∧ i.mnemonic.takesBranch s then
          1 + (if i.targetCrosses s then 1 else 0) else 0)) ∧
      2 ≤ n ∧ n ≤ 7 ∧ t.stall = n - 1 ∧ 1 ≤ t.stall ∧ t.stall ≤ 6 ∧
      ∀ k, 1 ≤ k → k ≤ n → RunsTo k s { t with stall := n - k }

/-- Two states that differ only in stall execute an instruction to the same next state. -/
def Obligations.ExecDoesNotSeeTheStallCounter : Prop :=
  ∀ (i : Instr) (s : State) (k : Nat), exec i { s with stall := k } = exec i s

/-- For an Operation that decodes to an instruction, execute answers what exec answers but with stall as it was,
whatever stall holds; for an undefined opcode it faults with the current PC. -/
def Obligations.ExecuteIsTheTransitionWithoutPacing : Prop :=
  ∀ (o : Operation) (s : State),
    (∀ i, o.instr = some i → ∃ t, exec i s = .next t ∧ execute o s = .next { t with stall := s.stall } ∧
      ∀ k, execute o { s with stall := k } = .next { t with stall := k }) ∧
    (o.instr = none → execute o s = .fault (.unknownOpcode s.pc o.opcode))

/-- From a Ready state with PC at a JMP to its own address, after any number of ticks everything but stall is as
before and no fault was raised. -/
def Obligations.JumpToItselfMovesOnlyStall : Prop :=
  ∀ (stop : Addr) (s : State), Complete stop s → StandsAtPC (.jmpAbs stop) s →
    NeverFaults s ∧ ∀ k, ∃ t, RunsTo k s t ∧ SameButStall s t

/-- For every instruction and state, the accesses of R48 in their order are consistent (each read returns the latest
earlier write or what memory held) and their writes, applied in order, turn the memory before into the memory after.
The list of accesses is the model's view of the instruction, not a part of its state (log entry 9, DEDUCED). -/
def Obligations.BusAccessesExplainMemory : Prop :=
  ∀ (i : Instr) (s : State), ∃ t, exec i s = .next t ∧
    (i.accesses s).foldl Access.apply s.mem = t.mem ∧ Access.consistent s.mem (i.accesses s) = true

/-- The accesses are the opcode and exactly size - 1 operand bytes, then the pointer reads of IND, IZX and IZY (low
byte first), then by class: a read makes one read at its address; a store one write of its register and no read; a
memory read-modify-write one read, then one write of the new value; JMP and the branches none at the target; JSR its
two pushes; immediate and accumulator forms none; the Implied instructions their own stack and vector accesses or
none. So there are 1 to 6, 1 for the register-only forms and 6 for BRK; writing the value a byte already holds changes
nothing. The list of accesses is the model's view of the instruction, not a part of its state (log entry 9, DEDUCED).
-/
def Obligations.BusAccessesAreOneToSixBytes : Prop :=
  (∀ (i : Instr) (s : State), 1 ≤ (i.accesses s).length ∧ (i.accesses s).length ≤ 6) ∧
    (∀ (i : Instr) (s : State), i.operand = .acc ∨ i.mnemonic ∈ [.tax, .tay, .tsx, .txa, .txs, .tya, .inx, .iny, .dex,
      .dey, .clc, .sec, .cli, .sei, .cld, .sed, .clv, .nop] → (i.accesses s).length = 1) ∧
    (∀ s : State, (Instr.brk.accesses s).length = 6) ∧
    (∀ (s : State) (a : Addr), Memory.wf s.mem → s.write a (s.read a) = s) ∧
    ∀ (i : Instr) (s : State),
      let fetched := (List.range (encode i).length).map (fun k => s.rdAt (s.pc + BitVec.ofNat 16 k))
      let pointers := match i.operand with
        | .mem (.ind p) => [s.rdAt p, s.rdAt (p + 1)]
        | .mem (.izx b) => [s.rdAt (zeroPage (b + s.x)), s.rdAt (zeroPage (b + s.x + 1))]
        | .mem (.izy b) => [s.rdAt (zeroPage b), s.rdAt (zeroPage (b + 1))]
        | _ => []
      let makes (body : List Access) : Prop := i.accesses s = fetched ++ pointers ++ body
      (∀ loc, i.location s = some loc →
        (i.mnemonic ∈ [.lda, .ldx, .ldy, .adc, .sbc, .cmp, .cpx, .cpy, .and, .ora, .eor, .bit] →
          makes [s.rdAt loc.addr]) ∧
        (i.mnemonic = .sta → makes [.wr loc.addr s.ac]) ∧
        (i.mnemonic = .stx → makes [.wr loc.addr s.x]) ∧
        (i.mnemonic = .sty → makes [.wr loc.addr s.y]) ∧
        (i.mnemonic ∈ [.asl, .lsr, .rol, .ror, .inc, .dec] →
          ∃ t, exec i s = .next t ∧ makes [s.rdAt loc.addr, .wr loc.addr (t.read loc.addr)]) ∧
        (i.mnemonic ∈ [.jmp, .bcc, .bcs, .beq, .bmi, .bne, .bpl, .bvc, .bvs] → makes []) ∧
        (i.mnemonic = .jsr →
          makes [.wr (stackAddr s.sp) (hi (s.pc + 2)), .wr (stackAddr (s.sp - 1)) (lo (s.pc + 2))])) ∧
      (i.operand = .acc → makes []) ∧
      (∀ b, i.operand = .imm b → makes []) ∧
      (i.mnemonic ∈ [.tax, .tay, .tsx, .txa, .txs, .tya, .inx, .iny, .dex, .dey, .clc, .sec, .cli, .sei, .cld, .sed, .clv,
        .nop] → makes []) ∧
      (i.mnemonic = .pha → makes [.wr (stackAddr s.sp) s.ac]) ∧
      (i.mnemonic = .php → makes [.wr (stackAddr s.sp) s.pushedStatus]) ∧
      (i.mnemonic ∈ [.pla, .plp] → makes [s.rdAt (stackAddr (s.sp + 1))]) ∧
      (i.mnemonic = .rts → makes [s.rdAt (stackAddr (s.sp + 1)), s.rdAt (stackAddr (s.sp + 2))]) ∧
      (i.mnemonic = .rti →
        makes [s.rdAt (stackAddr (s.sp + 1)), s.rdAt (stackAddr (s.sp + 2)), s.rdAt (stackAddr (s.sp + 3))]) ∧
      (i.mnemonic = .brk →
        makes [.wr (stackAddr s.sp) (hi (s.pc + 2)), .wr (stackAddr (s.sp - 1)) (lo (s.pc + 2)),
          .wr (stackAddr (s.sp - 2)) s.pushedStatus, s.rdAt 0xFFFE, s.rdAt 0xFFFF])

/-- If a second state has the same registers and flags and holds the same byte at every address the instruction reads
after its fetch, the instruction makes the same accesses there and ends with the same registers, flags and stall. The
list of accesses is the model's view of the instruction, not a part of its state (log entry 9, DEDUCED). -/
def Obligations.AnInstructionSeesOnlyTheBytesItReads : Prop :=
  ∀ (i : Instr) (s s' : State), s' = { s with mem := s'.mem } →
    (∀ a w, Access.rd a w ∈ i.bodyAccesses s → s'.read a = w) →
    i.bodyAccesses s' = i.bodyAccesses s ∧
      ∃ t t', exec i s = .next t ∧ exec i s' = .next t' ∧ t' = { t with mem := t'.mem }

/-- For every form of LDA, LDX and LDY: the encodings are the listed ones, the register becomes the operand byte, Z
and N follow it, PC and stall advance by size and cost, and everything else is unchanged. -/
def Obligations.LoadsTakeTheOperandByte : Prop :=
  encodingsOf .lda = [
      ⟨0xA9, .lda, .imm, { cycles := 2 }⟩, ⟨0xA5, .lda, .zp, { cycles := 3 }⟩, ⟨0xB5, .lda, .zpx, { cycles := 4 }⟩,
      ⟨0xAD, .lda, .abs, { cycles := 4 }⟩, ⟨0xBD, .lda, .abx, { cycles := 4, pageSensitive := true }⟩,
      ⟨0xB9, .lda, .aby, { cycles := 4, pageSensitive := true }⟩, ⟨0xA1, .lda, .izx, { cycles := 6 }⟩,
      ⟨0xB1, .lda, .izy, { cycles := 5, pageSensitive := true }⟩] ∧
  encodingsOf .ldx = [
      ⟨0xA2, .ldx, .imm, { cycles := 2 }⟩, ⟨0xA6, .ldx, .zp, { cycles := 3 }⟩, ⟨0xB6, .ldx, .zpy, { cycles := 4 }⟩,
      ⟨0xAE, .ldx, .abs, { cycles := 4 }⟩, ⟨0xBE, .ldx, .aby, { cycles := 4, pageSensitive := true }⟩] ∧
  encodingsOf .ldy = [
      ⟨0xA0, .ldy, .imm, { cycles := 2 }⟩, ⟨0xA4, .ldy, .zp, { cycles := 3 }⟩, ⟨0xB4, .ldy, .zpx, { cycles := 4 }⟩,
      ⟨0xAC, .ldy, .abs, { cycles := 4 }⟩, ⟨0xBC, .ldy, .abx, { cycles := 4, pageSensitive := true }⟩] ∧
  ∀ (i : Instr) (s : State),
    (i.mnemonic = .lda → ∃ m, i.operandValue s = some m ∧
      exec i s = .next { i.sequential s with ac := m, z := decide (m = 0x00), n := m.getLsbD 7 }) ∧
    (i.mnemonic = .ldx → ∃ m, i.operandValue s = some m ∧
      exec i s = .next { i.sequential s with x := m, z := decide (m = 0x00), n := m.getLsbD 7 }) ∧
    (i.mnemonic = .ldy → ∃ m, i.operandValue s = some m ∧
      exec i s = .next { i.sequential s with y := m, z := decide (m = 0x00), n := m.getLsbD 7 })

/-- For every form of STA, STX and STY: the encodings are the listed ones, the byte at the resolved address becomes
the register, every other byte, every register and every flag is unchanged, and PC and stall advance by size and cost.
-/
def Obligations.StoresWriteOneByte : Prop :=
  encodingsOf .sta = [
      ⟨0x85, .sta, .zp, { cycles := 3 }⟩, ⟨0x95, .sta, .zpx, { cycles := 4 }⟩, ⟨0x8D, .sta, .abs, { cycles := 4 }⟩,
      ⟨0x9D, .sta, .abx, { cycles := 5 }⟩, ⟨0x99, .sta, .aby, { cycles := 5 }⟩, ⟨0x81, .sta, .izx, { cycles := 6 }⟩,
      ⟨0x91, .sta, .izy, { cycles := 6 }⟩] ∧
  encodingsOf .stx = [
      ⟨0x86, .stx, .zp, { cycles := 3 }⟩, ⟨0x96, .stx, .zpy, { cycles := 4 }⟩, ⟨0x8E, .stx, .abs, { cycles := 4 }⟩] ∧
  encodingsOf .sty = [
      ⟨0x84, .sty, .zp, { cycles := 3 }⟩, ⟨0x94, .sty, .zpx, { cycles := 4 }⟩, ⟨0x8C, .sty, .abs, { cycles := 4 }⟩] ∧
  ∀ (i : Instr) (s : State),
    (i.mnemonic = .sta → ∃ loc t, i.location s = some loc ∧ exec i s = .next t ∧
      WritesOnly (i.sequential s) loc.addr s.ac t) ∧
    (i.mnemonic = .stx → ∃ loc t, i.location s = some loc ∧ exec i s = .next t ∧
      WritesOnly (i.sequential s) loc.addr s.x t) ∧
    (i.mnemonic = .sty → ∃ loc t, i.location s = some loc ∧ exec i s = .next t ∧
      WritesOnly (i.sequential s) loc.addr s.y t)

/-- Each transfer copies its source register to its destination, sets Z and N from the value moved (TXS sets no flag),
advances PC by 1, loads stall 1, and changes nothing else. -/
def Obligations.TransfersCopyARegister : Prop :=
  encodingsOf .tax = [⟨0xAA, .tax, .imp, { cycles := 2 }⟩] ∧
  encodingsOf .tay = [⟨0xA8, .tay, .imp, { cycles := 2 }⟩] ∧
  encodingsOf .tsx = [⟨0xBA, .tsx, .imp, { cycles := 2 }⟩] ∧
  encodingsOf .txa = [⟨0x8A, .txa, .imp, { cycles := 2 }⟩] ∧
  encodingsOf .txs = [⟨0x9A, .txs, .imp, { cycles := 2 }⟩] ∧
  encodingsOf .tya = [⟨0x98, .tya, .imp, { cycles := 2 }⟩] ∧
  ∀ s : State,
    let after := { s with pc := s.pc + 1, stall := 1 }
    exec .tax s = .next { after with x := s.ac, z := decide (s.ac = 0x00), n := s.ac.getLsbD 7 } ∧
      exec .tay s = .next { after with y := s.ac, z := decide (s.ac = 0x00), n := s.ac.getLsbD 7 } ∧
      exec .tsx s = .next { after with x := s.sp, z := decide (s.sp = 0x00), n := s.sp.getLsbD 7 } ∧
      exec .txa s = .next { after with ac := s.x, z := decide (s.x = 0x00), n := s.x.getLsbD 7 } ∧
      exec .txs s = .next { after with sp := s.x } ∧
      exec .tya s = .next { after with ac := s.y, z := decide (s.y = 0x00), n := s.y.getLsbD 7 }

/-- For every form of ADC: C is whether AC + operand + carry exceeds 0xFF, AC the sum modulo 256, V the
two's-complement test, Z and N from AC; everything else but PC and stall unchanged. The test is 1 exactly when the
signed sum of AC, operand and carry lies outside -128 to 127. -/
def Obligations.AdcAddsWithCarry : Prop :=
  encodingsOf .adc = [
      ⟨0x69, .adc, .imm, { cycles := 2 }⟩, ⟨0x65, .adc, .zp, { cycles := 3 }⟩, ⟨0x75, .adc, .zpx, { cycles := 4 }⟩,
      ⟨0x6D, .adc, .abs, { cycles := 4 }⟩, ⟨0x7D, .adc, .abx, { cycles := 4, pageSensitive := true }⟩,
      ⟨0x79, .adc, .aby, { cycles := 4, pageSensitive := true }⟩, ⟨0x61, .adc, .izx, { cycles := 6 }⟩,
      ⟨0x71, .adc, .izy, { cycles := 5, pageSensitive := true }⟩] ∧
  (∀ (i : Instr) (s : State), i.mnemonic = .adc → ∃ m, i.operandValue s = some m ∧
    let sum := s.ac.toNat + m.toNat + s.c.toNat
    let r := BitVec.ofNat 8 sum
    exec i s = .next { i.sequential s with
      c := decide (0xFF < sum), ac := r, v := decide (~~~(s.ac ^^^ m) &&& (s.ac ^^^ r) &&& 0x80 ≠ 0)
      z := decide (r = 0x00), n := r.getLsbD 7 }) ∧
  ∀ (old m : Byte) (carry : Bool),
    let r := BitVec.ofNat 8 (old.toNat + m.toNat + carry.toNat)
    let signed := old.toInt + m.toInt + carry.toNat
    ~~~(old ^^^ m) &&& (old ^^^ r) &&& 0x80 ≠ 0 ↔ ¬(-128 ≤ signed ∧ signed ≤ 127)

/-- For every form of SBC: AC becomes AC - operand - (1 - C) modulo 256, C is 1 exactly when AC was at least operand +
(1 - C) unsigned, V is the overflow test, Z and N from AC; everything else but PC and stall unchanged. The test is the
signed overflow of that difference. -/
def Obligations.SbcSubtractsWithBorrow : Prop :=
  encodingsOf .sbc = [
      ⟨0xE9, .sbc, .imm, { cycles := 2 }⟩, ⟨0xE5, .sbc, .zp, { cycles := 3 }⟩, ⟨0xF5, .sbc, .zpx, { cycles := 4 }⟩,
      ⟨0xED, .sbc, .abs, { cycles := 4 }⟩, ⟨0xFD, .sbc, .abx, { cycles := 4, pageSensitive := true }⟩,
      ⟨0xF9, .sbc, .aby, { cycles := 4, pageSensitive := true }⟩, ⟨0xE1, .sbc, .izx, { cycles := 6 }⟩,
      ⟨0xF1, .sbc, .izy, { cycles := 5, pageSensitive := true }⟩] ∧
  (∀ (i : Instr) (s : State), i.mnemonic = .sbc → ∃ m, i.operandValue s = some m ∧
    let borrow := 1 - s.c.toNat
    let r := s.ac - m - BitVec.ofNat 8 borrow
    exec i s = .next { i.sequential s with
      c := decide (m.toNat + borrow ≤ s.ac.toNat), ac := r, v := decide ((s.ac ^^^ m) &&& (s.ac ^^^ r) &&& 0x80 ≠ 0)
      z := decide (r = 0x00), n := r.getLsbD 7 }) ∧
  ∀ (old m : Byte) (carry : Bool),
    let r := old - m - BitVec.ofNat 8 (1 - carry.toNat)
    let signed := old.toInt - m.toInt - (1 - carry.toNat : Int)
    (old ^^^ m) &&& (old ^^^ r) &&& 0x80 ≠ 0 ↔ ¬(-128 ≤ signed ∧ signed ≤ 127)

/-- For every form of CMP, CPX and CPY: C is whether the register is at least the operand (unsigned), Z whether they
are equal, N bit 7 of the wrapped difference; everything else but PC and stall unchanged. -/
def Obligations.ComparesSetFlagsOnly : Prop :=
  encodingsOf .cmp = [
      ⟨0xC9, .cmp, .imm, { cycles := 2 }⟩, ⟨0xC5, .cmp, .zp, { cycles := 3 }⟩, ⟨0xD5, .cmp, .zpx, { cycles := 4 }⟩,
      ⟨0xCD, .cmp, .abs, { cycles := 4 }⟩, ⟨0xDD, .cmp, .abx, { cycles := 4, pageSensitive := true }⟩,
      ⟨0xD9, .cmp, .aby, { cycles := 4, pageSensitive := true }⟩, ⟨0xC1, .cmp, .izx, { cycles := 6 }⟩,
      ⟨0xD1, .cmp, .izy, { cycles := 5, pageSensitive := true }⟩] ∧
  encodingsOf .cpx = [
      ⟨0xE0, .cpx, .imm, { cycles := 2 }⟩, ⟨0xE4, .cpx, .zp, { cycles := 3 }⟩, ⟨0xEC, .cpx, .abs, { cycles := 4 }⟩] ∧
  encodingsOf .cpy = [
      ⟨0xC0, .cpy, .imm, { cycles := 2 }⟩, ⟨0xC4, .cpy, .zp, { cycles := 3 }⟩, ⟨0xCC, .cpy, .abs, { cycles := 4 }⟩] ∧
  ∀ (i : Instr) (s : State),
    let compared (r : Byte) : Prop := ∃ m, i.operandValue s = some m ∧
      exec i s = .next { i.sequential s with
        c := decide (m.toNat ≤ r.toNat), z := decide (r = m), n := (r - m).getLsbD 7 }
    (i.mnemonic = .cmp → compared s.ac) ∧ (i.mnemonic = .cpx → compared s.x) ∧ (i.mnemonic = .cpy → compared s.y)

/-- For every form of INC and DEC: the byte at the resolved address becomes itself plus or minus 1 modulo 256, Z and N
follow the new value, and every other byte, register and flag is unchanged but PC and stall. -/
def Obligations.IncAndDecRewriteOneByte : Prop :=
  encodingsOf .inc = [
      ⟨0xE6, .inc, .zp, { cycles := 5 }⟩, ⟨0xF6, .inc, .zpx, { cycles := 6 }⟩, ⟨0xEE, .inc, .abs, { cycles := 6 }⟩,
      ⟨0xFE, .inc, .abx, { cycles := 7 }⟩] ∧
  encodingsOf .dec = [
      ⟨0xC6, .dec, .zp, { cycles := 5 }⟩, ⟨0xD6, .dec, .zpx, { cycles := 6 }⟩, ⟨0xCE, .dec, .abs, { cycles := 6 }⟩,
      ⟨0xDE, .dec, .abx, { cycles := 7 }⟩] ∧
  ∀ (i : Instr) (s : State),
    let zn (r : Byte) (t : State) : State := { t with z := decide (r = 0x00), n := r.getLsbD 7 }
    (i.mnemonic = .inc → i.operand ≠ .acc ∧ Rewrites i s (fun w => w + 1) (fun w t => zn (w + 1) t)) ∧
      (i.mnemonic = .dec → i.operand ≠ .acc ∧ Rewrites i s (fun w => w - 1) (fun w t => zn (w - 1) t))

/-- Each adds or subtracts 1 modulo 256, sets Z and N from the new value, advances PC by 1, loads stall 1, and changes
nothing else. -/
def Obligations.IndexRegistersCountByOne : Prop :=
  encodingsOf .inx = [⟨0xE8, .inx, .imp, { cycles := 2 }⟩] ∧
  encodingsOf .iny = [⟨0xC8, .iny, .imp, { cycles := 2 }⟩] ∧
  encodingsOf .dex = [⟨0xCA, .dex, .imp, { cycles := 2 }⟩] ∧
  encodingsOf .dey = [⟨0x88, .dey, .imp, { cycles := 2 }⟩] ∧
  ∀ s : State,
    let zn (r : Byte) (t : State) : State := { t with pc := s.pc + 1, stall := 1, z := decide (r = 0x00), n := r.getLsbD 7 }
    exec .inx s = .next (zn (s.x + 1) { s with x := s.x + 1 }) ∧
      exec .iny s = .next (zn (s.y + 1) { s with y := s.y + 1 }) ∧
      exec .dex s = .next (zn (s.x - 1) { s with x := s.x - 1 }) ∧
      exec .dey s = .next (zn (s.y - 1) { s with y := s.y - 1 })

/-- For every form of AND, ORA and EOR: AC becomes the bitwise combination with the operand, Z and N follow it;
everything else but PC and stall unchanged. -/
def Obligations.LogicCombinesTheAccumulator : Prop :=
  encodingsOf .and = [
      ⟨0x29, .and, .imm, { cycles := 2 }⟩, ⟨0x25, .and, .zp, { cycles := 3 }⟩, ⟨0x35, .and, .zpx, { cycles := 4 }⟩,
      ⟨0x2D, .and, .abs, { cycles := 4 }⟩, ⟨0x3D, .and, .abx, { cycles := 4, pageSensitive := true }⟩,
      ⟨0x39, .and, .aby, { cycles := 4, pageSensitive := true }⟩, ⟨0x21, .and, .izx, { cycles := 6 }⟩,
      ⟨0x31, .and, .izy, { cycles := 5, pageSensitive := true }⟩] ∧
  encodingsOf .ora = [
      ⟨0x09, .ora, .imm, { cycles := 2 }⟩, ⟨0x05, .ora, .zp, { cycles := 3 }⟩, ⟨0x15, .ora, .zpx, { cycles := 4 }⟩,
      ⟨0x0D, .ora, .abs, { cycles := 4 }⟩, ⟨0x1D, .ora, .abx, { cycles := 4, pageSensitive := true }⟩,
      ⟨0x19, .ora, .aby, { cycles := 4, pageSensitive := true }⟩, ⟨0x01, .ora, .izx, { cycles := 6 }⟩,
      ⟨0x11, .ora, .izy, { cycles := 5, pageSensitive := true }⟩] ∧
  encodingsOf .eor = [
      ⟨0x49, .eor, .imm, { cycles := 2 }⟩, ⟨0x45, .eor, .zp, { cycles := 3 }⟩, ⟨0x55, .eor, .zpx, { cycles := 4 }⟩,
      ⟨0x4D, .eor, .abs, { cycles := 4 }⟩, ⟨0x5D, .eor, .abx, { cycles := 4, pageSensitive := true }⟩,
      ⟨0x59, .eor, .aby, { cycles := 4, pageSensitive := true }⟩, ⟨0x41, .eor, .izx, { cycles := 6 }⟩,
      ⟨0x51, .eor, .izy, { cycles := 5, pageSensitive := true }⟩] ∧
  ∀ (i : Instr) (s : State),
    let combined (f : Byte → Byte) : Prop := ∃ m, i.operandValue s = some m ∧
      exec i s = .next { i.sequential s with ac := f m, z := decide (f m = 0x00), n := (f m).getLsbD 7 }
    (i.mnemonic = .and → combined (fun m => s.ac &&& m)) ∧ (i.mnemonic = .ora → combined (fun m => s.ac ||| m)) ∧
      (i.mnemonic = .eor → combined (fun m => s.ac ^^^ m))

/-- For both forms of BIT: Z is whether the and of AC and the operand is 0, V bit 6 and N bit 7 of the operand;
everything else but PC and stall unchanged. -/
def Obligations.BitTestsTheOperand : Prop :=
  encodingsOf .bit = [
      ⟨0x24, .bit, .zp, { cycles := 3 }⟩, ⟨0x2C, .bit, .abs, { cycles := 4 }⟩] ∧
  ∀ (i : Instr) (s : State), i.mnemonic = .bit → ∃ m, i.operandValue s = some m ∧
    exec i s = .next { i.sequential s with
      z := decide (s.ac &&& m = 0x00), v := m.getLsbD 6, n := m.getLsbD 7 }

/-- For every form of the four: the operand is doubled or halved modulo 256 with 0 or the old carry shifted in, the
bit that falls out becomes C, Z and N follow the result (N is 0 after LSR), in ACC mode AC is rewritten and no byte of
memory, in a memory mode exactly the byte at the resolved address; nothing else but PC and stall changes. -/
def Obligations.ShiftsMoveOneBitThroughCarry : Prop :=
  encodingsOf .asl = [
      ⟨0x0A, .asl, .acc, { cycles := 2 }⟩, ⟨0x06, .asl, .zp, { cycles := 5 }⟩, ⟨0x16, .asl, .zpx, { cycles := 6 }⟩,
      ⟨0x0E, .asl, .abs, { cycles := 6 }⟩, ⟨0x1E, .asl, .abx, { cycles := 7 }⟩] ∧
  encodingsOf .lsr = [
      ⟨0x4A, .lsr, .acc, { cycles := 2 }⟩, ⟨0x46, .lsr, .zp, { cycles := 5 }⟩, ⟨0x56, .lsr, .zpx, { cycles := 6 }⟩,
      ⟨0x4E, .lsr, .abs, { cycles := 6 }⟩, ⟨0x5E, .lsr, .abx, { cycles := 7 }⟩] ∧
  encodingsOf .rol = [
      ⟨0x2A, .rol, .acc, { cycles := 2 }⟩, ⟨0x26, .rol, .zp, { cycles := 5 }⟩, ⟨0x36, .rol, .zpx, { cycles := 6 }⟩,
      ⟨0x2E, .rol, .abs, { cycles := 6 }⟩, ⟨0x3E, .rol, .abx, { cycles := 7 }⟩] ∧
  encodingsOf .ror = [
      ⟨0x6A, .ror, .acc, { cycles := 2 }⟩, ⟨0x66, .ror, .zp, { cycles := 5 }⟩, ⟨0x76, .ror, .zpx, { cycles := 6 }⟩,
      ⟨0x6E, .ror, .abs, { cycles := 6 }⟩, ⟨0x7E, .ror, .abx, { cycles := 7 }⟩] ∧
  ∀ (i : Instr) (s : State),
    let shifted (out : Byte → Bool) (f : Byte → Nat) : Prop := Rewrites i s (fun w => BitVec.ofNat 8 (f w))
      (fun w t => { t with
        c := out w, z := decide (f w % 256 = 0), n := decide (128 ≤ f w % 256) })
    (i.mnemonic = .asl → shifted (fun w => w.getLsbD 7) (fun w => 2 * w.toNat)) ∧
      (i.mnemonic = .lsr → shifted (fun w => w.getLsbD 0) (fun w => w.toNat / 2)) ∧
      (i.mnemonic = .rol → shifted (fun w => w.getLsbD 7) (fun w => 2 * w.toNat + s.c.toNat)) ∧
      (i.mnemonic = .ror → shifted (fun w => w.getLsbD 0) (fun w => w.toNat / 2 + 128 * s.c.toNat))

/-- A branch whose flag condition holds sets PC to the address of the next instruction plus the signed offset and
takes 3 ticks, 4 when the target lies in another page than the next instruction; otherwise PC is the next instruction
and it takes 2 ticks; no flag, register or byte changes. -/
def Obligations.BranchesTestOneFlag : Prop :=
  encodingsOf .bcc = [⟨0x90, .bcc, .rel, { cycles := 2, branchSensitive := true }⟩] ∧
  encodingsOf .bcs = [⟨0xB0, .bcs, .rel, { cycles := 2, branchSensitive := true }⟩] ∧
  encodingsOf .beq = [⟨0xF0, .beq, .rel, { cycles := 2, branchSensitive := true }⟩] ∧
  encodingsOf .bmi = [⟨0x30, .bmi, .rel, { cycles := 2, branchSensitive := true }⟩] ∧
  encodingsOf .bne = [⟨0xD0, .bne, .rel, { cycles := 2, branchSensitive := true }⟩] ∧
  encodingsOf .bpl = [⟨0x10, .bpl, .rel, { cycles := 2, branchSensitive := true }⟩] ∧
  encodingsOf .bvc = [⟨0x50, .bvc, .rel, { cycles := 2, branchSensitive := true }⟩] ∧
  encodingsOf .bvs = [⟨0x70, .bvs, .rel, { cycles := 2, branchSensitive := true }⟩] ∧
  ∀ (s : State) (off : Byte),
    let following := s.pc + 2
    let target := BitVec.ofInt 16 (following.toNat + off.toInt)
    let branches (i : Instr) (cond : Bool) : Prop := exec i s = .next (
      if cond then
        { s with pc := target, stall := if target.toNat / 256 = following.toNat / 256 then 2 else 3 }
      else { s with pc := following, stall := 1 })
    branches (.bcc off) (!s.c) ∧ branches (.bcs off) s.c ∧ branches (.beq off) s.z ∧ branches (.bmi off) s.n ∧
      branches (.bne off) (!s.z) ∧ branches (.bpl off) (!s.n) ∧ branches (.bvc off) (!s.v) ∧
      branches (.bvs off) s.v

/-- JMP absolute sets PC to its operand in 3 cycles, JMP indirect to the little-endian pointer at its operand in 5,
the high byte read from the next address modulo 65536; registers, flags, stack and memory unchanged. -/
def Obligations.JmpLoadsPC : Prop :=
  encodingsOf .jmp = [
      ⟨0x4C, .jmp, .abs, { cycles := 3 }⟩, ⟨0x6C, .jmp, .ind, { cycles := 5 }⟩] ∧
  ∀ (s : State) (a : Addr),
    exec (.jmpAbs a) s = .next { s with pc := a, stall := 2 } ∧
      exec (.jmpInd a) s = .next { s with
        pc := fromBytes (s.read (BitVec.ofNat 16 ((a.toNat + 1) % 65536))) (s.read a), stall := 4 }

/-- JSR writes the high byte of the address of its own last byte at the stack pointer and the low byte one below
(wrapping in page 1), lowers SP by 2, sets PC to its operand in 6 cycles; no other byte, register or flag changes. -/
def Obligations.JsrPushesItsLastByteAddress : Prop :=
  encodingsOf .jsr = [⟨0x20, .jsr, .abs, { cycles := 6 }⟩] ∧
  ∀ (s : State) (a : Addr), ∃ t, exec (.jsr a) s = .next t ∧
    t = { s with pc := a, sp := s.sp - 2, stall := 5, mem := t.mem } ∧
    ∀ b : Addr, t.read b =
      if b = BitVec.ofNat 16 (0x100 + s.sp.toNat) then hi (s.pc + 2)
      else if b = BitVec.ofNat 16 (0x100 + (s.sp - 1).toNat) then lo (s.pc + 2)
      else s.read b

/-- RTS reads the low then the high byte above the stack pointer (wrapping in page 1), sets PC to that address plus 1
modulo 65536 and SP 2 higher in 6 cycles; no flag, other register or byte changes. -/
def Obligations.RtsPullsAndAddsOne : Prop :=
  encodingsOf .rts = [⟨0x60, .rts, .imp, { cycles := 6 }⟩] ∧
  ∀ s : State,
    let low := s.read (BitVec.ofNat 16 (0x100 + (s.sp + 1).toNat))
    let high := s.read (BitVec.ofNat 16 (0x100 + (s.sp + 2).toNat))
    exec .rts s = .next { s with
      pc := BitVec.ofNat 16 (high.toNat * 256 + low.toNat + 1), sp := s.sp + 2, stall := 5 }

/-- After a JSR, in any later state whose SP and whose two stacked bytes are as the JSR left them, RTS sets PC to the
JSR address plus 3 and SP to its value before the JSR, and keeps everything else. -/
def Obligations.RtsReturnsAfterJsr : Prop :=
  ∀ (s t u : State) (a : Addr), exec (.jsr a) s = .next t → u.sp = t.sp →
    (∀ k < 2, u.read (stackAddr (s.sp - BitVec.ofNat 8 k)) = t.read (stackAddr (s.sp - BitVec.ofNat 8 k))) →
    exec .rts u = .next { u with pc := s.pc + 3, sp := s.sp, stall := 5 }

/-- PHA pushes AC, PHP the status byte with bits 5 and 4 set whatever B holds, at 0x0100 + SP; SP becomes one lower
modulo 256; no flag, other register or other byte changes; 3 cycles. -/
def Obligations.PushesWriteOneStackByte : Prop :=
  encodingsOf .pha = [⟨0x48, .pha, .imp, { cycles := 3 }⟩] ∧
  encodingsOf .php = [⟨0x08, .php, .imp, { cycles := 3 }⟩] ∧
  ∀ s : State,
    let status := BitVec.ofNat 8 (128 * s.n.toNat + 64 * s.v.toNat + 32 + 16 + 8 * s.d.toNat + 4 * s.i.toNat +
      2 * s.z.toNat + s.c.toNat)
    let pushes (i : Instr) (w : Byte) : Prop := ∃ t, exec i s = .next t ∧
      WritesOnly { s with pc := s.pc + 1, stall := 2, sp := s.sp - 1 } (BitVec.ofNat 16 (0x100 + s.sp.toNat)) w t
    pushes .pha s.ac ∧ pushes .php status

/-- PLA loads AC with Z and N, PLP writes N V D I Z C from bits 7 6 3 2 1 0 and leaves B, from the byte at 0x0100 +
(SP + 1 modulo 256); SP becomes one higher; everything else unchanged; 4 cycles. -/
def Obligations.PullsReadOneStackByte : Prop :=
  encodingsOf .pla = [⟨0x68, .pla, .imp, { cycles := 4 }⟩] ∧
  encodingsOf .plp = [⟨0x28, .plp, .imp, { cycles := 4 }⟩] ∧
  ∀ s : State,
    let m := s.read (BitVec.ofNat 16 (0x100 + (s.sp + 1).toNat))
    let after := { s with pc := s.pc + 1, stall := 3, sp := s.sp + 1 }
    exec .pla s = .next { after with ac := m, z := decide (m = 0x00), n := m.getLsbD 7 } ∧
      exec .plp s = .next { after with
        n := m.getLsbD 7, v := m.getLsbD 6, d := m.getLsbD 3, i := m.getLsbD 2, z := m.getLsbD 1, c := m.getLsbD 0 }

/-- Each writes its one flag, advances PC by 1, loads stall 1 and changes nothing else. -/
def Obligations.FlagInstructionsWriteOneFlag : Prop :=
  encodingsOf .clc = [⟨0x18, .clc, .imp, { cycles := 2 }⟩] ∧
  encodingsOf .sec = [⟨0x38, .sec, .imp, { cycles := 2 }⟩] ∧
  encodingsOf .cli = [⟨0x58, .cli, .imp, { cycles := 2 }⟩] ∧
  encodingsOf .sei = [⟨0x78, .sei, .imp, { cycles := 2 }⟩] ∧
  encodingsOf .cld = [⟨0xD8, .cld, .imp, { cycles := 2 }⟩] ∧
  encodingsOf .sed = [⟨0xF8, .sed, .imp, { cycles := 2 }⟩] ∧
  encodingsOf .clv = [⟨0xB8, .clv, .imp, { cycles := 2 }⟩] ∧
  ∀ s : State,
    let after := { s with pc := s.pc + 1, stall := 1 }
    exec .clc s = .next { after with c := false } ∧ exec .sec s = .next { after with c := true } ∧
      exec .cli s = .next { after with i := false } ∧ exec .sei s = .next { after with i := true } ∧
      exec .cld s = .next { after with d := false } ∧ exec .sed s = .next { after with d := true } ∧
      exec .clv s = .next { after with v := false }

/-- NOP advances PC by 1, loads stall 1 and changes nothing else; it is the only opcode whose effect is that in every
state. -/
def Obligations.NopDoesNothing : Prop :=
  encodingsOf .nop = [⟨0xEA, .nop, .imp, { cycles := 2 }⟩] ∧
  (∀ s : State, exec .nop s = .next { s with pc := s.pc + 1, stall := 1 }) ∧
  ∀ i : Instr, (∀ s : State, exec i s = .next { s with pc := s.pc + 1, stall := 1 }) → i = .nop

/-- In every state BRK pushes the address of its opcode plus 2, high byte first, then the status byte with bits 5 and
4 set and I as it was; B and I become 1; SP is 3 lower; PC is the little-endian word at 0xFFFE/0xFFFF; 7 cycles; no
other flag, register or byte changes. -/
def Obligations.BrkTakesTheTrap : Prop :=
  encodingsOf .brk = [⟨0x00, .brk, .imp, { cycles := 7 }⟩] ∧
  ∀ s : State,
    let status := BitVec.ofNat 8 (128 * s.n.toNat + 64 * s.v.toNat + 32 + 16 + 8 * s.d.toNat + 4 * s.i.toNat +
      2 * s.z.toNat + s.c.toNat)
    ∃ t, exec .brk s = .next t ∧
      t = { s with
        pc := fromBytes (s.read 0xFFFF) (s.read 0xFFFE), sp := s.sp - 3, b := true, i := true, stall := 6, mem := t.mem } ∧
      ∀ a : Addr, t.read a =
        if a = BitVec.ofNat 16 (0x100 + s.sp.toNat) then hi (s.pc + 2)
        else if a = BitVec.ofNat 16 (0x100 + (s.sp - 1).toNat) then lo (s.pc + 2)
        else if a = BitVec.ofNat 16 (0x100 + (s.sp - 2).toNat) then status
        else s.read a

/-- RTI writes N V D I Z C from the first byte above the stack pointer, PC from the next two, low byte first, leaves
B, raises SP by 3 (wrapping in page 1); 6 cycles; everything else unchanged. -/
def Obligations.RtiRestoresFlagsAndPC : Prop :=
  encodingsOf .rti = [⟨0x40, .rti, .imp, { cycles := 6 }⟩] ∧
  ∀ s : State,
    let pulled (k : Nat) : Byte := s.read (BitVec.ofNat 16 (0x100 + (s.sp + BitVec.ofNat 8 k).toNat))
    let p := pulled 1
    exec .rti s = .next { s with
      pc := BitVec.ofNat 16 ((pulled 3).toNat * 256 + (pulled 2).toNat), sp := s.sp + 3, stall := 5
      n := p.getLsbD 7, v := p.getLsbD 6, d := p.getLsbD 3, i := p.getLsbD 2, z := p.getLsbD 1, c := p.getLsbD 0 }

/-- After a BRK, in any later state whose SP and whose three stacked bytes are as the BRK left them, RTI sets PC to
the BRK address plus 2, SP and the flags N V D I Z C (I among them) to their values before the BRK, and keeps
everything else, B among it. -/
def Obligations.RtiReturnsFromBrk : Prop :=
  ∀ s t u : State, exec .brk s = .next t → u.sp = t.sp →
    (∀ k < 3, u.read (stackAddr (s.sp - BitVec.ofNat 8 k)) = t.read (stackAddr (s.sp - BitVec.ofNat 8 k))) →
    exec .rti u = .next { u with
      pc := s.pc + 2, sp := s.sp, n := s.n, v := s.v, d := s.d, i := s.i, z := s.z, c := s.c, stall := 5 }

/-- For each of the seven flags, an instruction that is not in the list of writers of its rule (R17 to R23) leaves it
unchanged, in every state. -/
def Obligations.OnlyTheListedInstructionsWriteEachFlag : Prop :=
  ∀ (i : Instr) (s : State), ∃ t, exec i s = .next t ∧
    (i.mnemonic ∉ [.lda, .ldx, .ldy, .tax, .tay, .tsx, .txa, .tya, .pla, .adc, .sbc, .cmp, .cpx, .cpy, .inc, .inx, .iny,
      .dec, .dex, .dey, .and, .ora, .eor, .asl, .lsr, .rol, .ror, .bit, .plp, .rti] → t.n = s.n ∧ t.z = s.z) ∧
    (i.mnemonic ∉ [.adc, .sbc, .bit, .clv, .plp, .rti] → t.v = s.v) ∧
    (i.mnemonic ≠ .brk → t.b = s.b) ∧
    (i.mnemonic ∉ [.sed, .cld, .plp, .rti] → t.d = s.d) ∧
    (i.mnemonic ∉ [.sei, .brk, .cli, .plp, .rti] → t.i = s.i) ∧
    (i.mnemonic ∉ [.adc, .sbc, .cmp, .cpx, .cpy, .asl, .rol, .lsr, .ror, .sec, .clc, .plp, .rti] → t.c = s.c)

/-- Every other instruction ends with PC at its address plus its size, modulo 65536; the stack pointer changes only by
TXS and the instructions that push or pull, AC, X and Y only by the instructions that have them as destination. -/
def Obligations.OnlyControlTransfersLeaveTheSequence : Prop :=
  ∀ (i : Instr) (s : State), ∃ t, exec i s = .next t ∧
    (i.mnemonic ∉ [.bcc, .bcs, .beq, .bmi, .bne, .bpl, .bvc, .bvs, .jmp, .jsr, .rts, .rti, .brk] →
      t.pc.toNat = (s.pc.toNat + (encode i).length) % 65536) ∧
    (i.mnemonic ∉ [.txs, .pha, .php, .pla, .plp, .jsr, .rts, .brk, .rti] → t.sp = s.sp) ∧
    (i.mnemonic ∉ [.lda, .pla, .txa, .tya, .adc, .sbc, .and, .ora, .eor] → i.operand ≠ .acc → t.ac = s.ac) ∧
    (i.mnemonic ∉ [.ldx, .tax, .tsx, .inx, .dex] → t.x = s.x) ∧
    (i.mnemonic ∉ [.ldy, .tay, .iny, .dey] → t.y = s.y)

/-- An instruction that is no store, no memory read-modify-write and no push leaves every byte as it was; a store or
read-modify-write changes at most the byte at its resolved address; PHA, PHP, JSR and BRK change bytes of 0x0100 to
0x01FF only. -/
def Obligations.OnlyWritingInstructionsChangeMemory : Prop :=
  ∀ (i : Instr) (s : State), ∃ t, exec i s = .next t ∧
    (i.mnemonic ∉ [.sta, .stx, .sty, .asl, .lsr, .rol, .ror, .inc, .dec, .pha, .php, .jsr, .brk] → t.mem = s.mem) ∧
    (i.operand = .acc → t.mem = s.mem) ∧
    (∀ loc a, i.mnemonic ∉ [.jsr] → i.location s = some loc → a ≠ loc.addr → t.read a = s.read a) ∧
    (∀ a : Addr, i.mnemonic ∈ [.pha, .php, .jsr, .brk] → a.toNat < 0x100 ∨ 0x1FF < a.toNat → t.read a = s.read a)

/-- BRK sets B and no other instruction writes it, PLP and RTI included; and two runs that start in states differing
only in B take the same steps, fault alike, and stay equal but for B. -/
def Obligations.BreakFlagIsUnobservable : Prop :=
  (∀ (i : Instr) (s : State), ∃ t, exec i s = .next t ∧ t.b = (if i.mnemonic = .brk then true else s.b)) ∧
    ∀ (k : Nat) (s : State) (f : Bool),
      (∀ t, RunsTo k s t → ∃ g, RunsTo k { s with b := f } { t with b := g }) ∧
        ∀ r, FaultsIn k s r → FaultsIn k { s with b := f } r

/-- An instruction other than PHP and BRK does the same in two states that differ only in D and I: every other part of
the next state is equal, and D and I stay as they were unless the instruction writes them. -/
def Obligations.DecimalAndInterruptFlagsAreInert : Prop :=
  ∀ (i : Instr) (s : State) (d' i' : Bool), i.mnemonic ∉ [.php, .brk] →
    ∃ t, exec i s = .next t ∧ ∃ t', exec i { s with d := d', i := i' } = .next t' ∧
      t' = { t with d := t'.d, i := t'.i } ∧
      (i.mnemonic ∉ [.sed, .cld, .plp, .rti] → t'.d = d') ∧ (i.mnemonic ∉ [.sei, .cli, .plp, .rti] → t'.i = i') ∧
      (i.mnemonic ∈ [.sed, .cld, .plp, .rti] → t'.d = t.d) ∧ (i.mnemonic ∈ [.sei, .cli, .plp, .rti] → t'.i = t.i)
end

