-- ==== Sys2Proof/Laws/Address.lean ====
section
/-!
SUPPORT. The small lemmas of the address helpers (20_memory.md R35, R36).
-/

namespace Sys2Proof.Laws

open Sys2Proof.Machine

@[simp] theorem fromBytes_hi_lo (a : Addr) : fromBytes (hi a) (lo a) = a := by
  apply BitVec.eq_of_toNat_eq
  simp only [fromBytes, hi, lo, BitVec.toNat_append, BitVec.extractLsb'_toNat]
  rw [← Nat.shiftLeft_add_eq_or_of_lt (by omega)]
  simp only [Nat.shiftLeft_eq, Nat.shiftRight_eq_div_pow]
  omega

theorem fromBytes_toNat (h l : Byte) : (fromBytes h l).toNat = h.toNat * 256 + l.toNat := by
  simp only [fromBytes, BitVec.toNat_append]
  rw [← Nat.shiftLeft_add_eq_or_of_lt l.isLt, Nat.shiftLeft_eq]

theorem hi_toNat (a : Addr) : (hi a).toNat = a.toNat / 256 := by
  have := a.isLt
  simp only [hi, BitVec.extractLsb'_toNat, Nat.shiftRight_eq_div_pow]
  omega

theorem lo_toNat (a : Addr) : (lo a).toNat = a.toNat % 256 := by
  simp only [lo, BitVec.extractLsb'_toNat, Nat.shiftRight_eq_div_pow]
  omega

@[simp] theorem hi_fromBytes (h l : Byte) : hi (fromBytes h l) = h := by
  apply BitVec.eq_of_toNat_eq
  have := l.isLt
  rw [hi_toNat, fromBytes_toNat]; omega

@[simp] theorem lo_fromBytes (h l : Byte) : lo (fromBytes h l) = l := by
  apply BitVec.eq_of_toNat_eq
  have := l.isLt
  rw [lo_toNat, fromBytes_toNat]; omega

@[simp] theorem zeroPage_toNat (b : Byte) : (zeroPage b).toNat = b.toNat := by
  have := b.isLt
  simp only [zeroPage, BitVec.truncate_eq_setWidth, BitVec.toNat_setWidth]
  omega

theorem stackAddr_toNat (sp : Byte) : (stackAddr sp).toNat = 0x100 + sp.toNat := by
  rw [stackAddr, fromBytes_toNat]; rfl

@[simp] theorem stackAddr_inj (p q : Byte) : stackAddr p = stackAddr q ↔ p = q := by
  constructor
  · intro h
    have := congrArg lo h
    simpa [stackAddr] using this
  · rintro rfl; rfl

theorem fromBytes_inj (h l h' l' : Byte) : fromBytes h l = fromBytes h' l' ↔ h = h' ∧ l = l' := by
  constructor
  · intro e
    exact ⟨by simpa using congrArg hi e, by simpa using congrArg lo e⟩
  · rintro ⟨rfl, rfl⟩; rfl

/-- The JMP-indirect pointer is read with a clean 16-bit increment (R89). -/
@[simp] theorem indirectHigh_eq (p : Addr) : indirectHigh p = p + 1 := rfl

/-- A zero-page pointer stays in page 0 (R98). -/
@[simp] theorem zeroPageHigh_eq (z : Byte) : zeroPageHigh z = zeroPage (z + 1) := rfl

/-- A stack address as a number. -/
theorem ofNat_stackAddr (p : Byte) : BitVec.ofNat 16 (0x100 + p.toNat) = stackAddr p := by
  apply BitVec.eq_of_toNat_eq
  have := p.isLt
  rw [stackAddr_toNat]; simp; omega

/-- A branch target as an integer sum (R36). -/
theorem ofInt_withOffset (base : Addr) (off : Byte) :
    BitVec.ofInt 16 (base.toNat + off.toInt) = withOffset base off := by
  rw [withOffset, BitVec.ofInt_add, BitVec.signExtend]
  simp

/-- Two addresses lie in different pages. -/
theorem hi_bne (a b : Addr) : (hi a != hi b) = decide (a.toNat / 256 ≠ b.toNat / 256) := by
  simp only [← hi_toNat, bne, Bool.beq_eq_decide_eq]
  simp [BitVec.toNat_inj]

end Sys2Proof.Laws
end

