-- ==== Sys2Proof/Laws/Memory.lean ====
section
/-!
SUPPORT. The laws of the memory list: what a read gives after a write (20_memory.md R31, R32), and that every operation
keeps the canonical form.
-/

namespace Sys2Proof.Laws

open Sys2Proof.Machine

theorem readKey_erase (m : Memory) (a b : Nat) :
    (Memory.erase m a).readKey b = if b = a then Config.unlistedByte else Memory.readKey m b := by
  induction m with
  | nil => simp [Memory.erase, Memory.readKey]
  | cons cell m ih =>
    obtain ⟨k, w⟩ := cell
    simp only [Memory.erase, List.filter_cons, bne_iff_ne, ne_eq] at ih ⊢
    by_cases hk : k = a
    · subst hk
      simp only [not_true_eq_false, ↓reduceIte, ih, Memory.readKey]
      by_cases hb : b = k <;> simp [hb, eq_comm]
    · simp only [hk, not_false_eq_true, ↓reduceIte, Memory.readKey, ih]
      by_cases hb : k = b
      · subst hb; simp [hk]
      · simp [hb]

theorem readKey_insert (m : Memory) (a b : Nat) (w : Byte) (h : Memory.readKey m a = Config.unlistedByte)
    (hm : ∀ p ∈ m, p.1 ≠ a) :
    (Memory.insert m a w).readKey b = if b = a then w else Memory.readKey m b := by
  induction m with
  | nil => simp [Memory.insert, Memory.readKey, eq_comm]
  | cons cell m ih =>
    obtain ⟨k, u⟩ := cell
    have hk : k ≠ a := hm (k, u) (by simp)
    have htail := ih (by simpa [Memory.readKey, hk] using h) (fun p hp => hm p (by simp [hp]))
    simp only [Memory.insert]
    split
    · simp [Memory.readKey, eq_comm]
    · simp only [Memory.readKey, htail]
      by_cases hb : k = b
      · subst hb; simp [hk]
      · simp [hb]

theorem erase_no_key (m : Memory) (a : Nat) : ∀ p ∈ Memory.erase m a, p.1 ≠ a := by
  intro p hp
  simpa using (List.mem_filter.mp hp).2

/-- After a write the key holds the value written, and every other key what it held (R32). -/
@[simp] theorem readKey_writeKey (m : Memory) (a b : Nat) (w : Byte) :
    (Memory.writeKey m a w).readKey b = if b = a then w else Memory.readKey m b := by
  unfold Memory.writeKey
  split
  · next h => rw [readKey_erase, h]
  · rw [readKey_insert _ _ _ _ (by simp [readKey_erase]) (erase_no_key m a), readKey_erase]
    split <;> simp_all

theorem erase_wf {m : Memory} (h : Memory.wf m) (a : Nat) : Memory.wf (Memory.erase m a) :=
  ⟨h.1.filter _, fun p hp => h.2 p (List.mem_filter.mp hp).1⟩

theorem mem_insert {m : Memory} {a : Nat} {w : Byte} {p : Host.Cell} (h : p ∈ Memory.insert m a w) :
    p = (a, w) ∨ p ∈ m := by
  induction m with
  | nil => simpa [Memory.insert] using h
  | cons cell m ih =>
    obtain ⟨k, u⟩ := cell
    simp only [Memory.insert] at h
    split at h
    · simpa using h
    · rcases List.mem_cons.mp h with rfl | h
      · simp
      · rcases ih h with rfl | h <;> simp [*]

theorem insert_wf {m : Memory} (h : Memory.wf m) {a : Nat} {w : Byte} (ha : a < 65536)
    (hw : w ≠ Config.unlistedByte) (hm : ∀ p ∈ m, p.1 ≠ a) : Memory.wf (Memory.insert m a w) := by
  refine ⟨?_, fun p hp => ?_⟩
  · have hs := h.1
    clear h
    induction m with
    | nil => simp [Memory.insert]
    | cons cell m ih =>
      obtain ⟨k, u⟩ := cell
      have hk : k ≠ a := hm (k, u) (by simp)
      rw [List.pairwise_cons] at hs
      simp only [Memory.insert]
      split
      · next hlt =>
        rw [List.pairwise_cons]
        refine ⟨fun p hp => ?_, List.pairwise_cons.mpr hs⟩
        rcases List.mem_cons.mp hp with rfl | hp
        · exact hlt
        · exact Nat.lt_trans hlt (hs.1 p hp)
      · rw [List.pairwise_cons]
        refine ⟨fun p hp => ?_, ih (fun p hp => hm p (by simp [hp])) hs.2⟩
        rcases mem_insert hp with rfl | hp
        · simp only; omega
        · exact hs.1 p hp
  · rcases mem_insert hp with rfl | hp
    · exact ⟨hw, ha⟩
    · exact h.2 p hp

/-- A write keeps the canonical form. -/
theorem writeKey_wf {m : Memory} (h : Memory.wf m) {a : Nat} (ha : a < 65536) (w : Byte) :
    Memory.wf (Memory.writeKey m a w) := by
  unfold Memory.writeKey
  split
  · exact erase_wf h a
  · next hw => exact insert_wf (erase_wf h a) ha hw (erase_no_key m a)

/-- `MemWrite` keeps the canonical form, for every address. -/
theorem write_wf {s : State} (h : Memory.wf s.mem) (a : Addr) (w : Byte) : Memory.wf (s.write a w).mem :=
  writeKey_wf h a.isLt w

theorem push_wf {s : State} (h : Memory.wf s.mem) (w : Byte) : Memory.wf (s.push w).mem := write_wf h _ w

theorem push16_wf {s : State} (h : Memory.wf s.mem) (a : Addr) : Memory.wf (s.push16 a).mem := push_wf (push_wf h _) _

theorem takeTrap_wf {s : State} (h : Memory.wf s.mem) : Memory.wf s.takeTrap.mem :=
  push_wf (s := { s.push16 (s.pc + 1) with b := true }) (push16_wf h _) _

theorem storeBytes_wf {s : State} (h : Memory.wf s.mem) (a : Addr) (ws : List Byte) :
    Memory.wf (s.storeBytes a ws).mem := by
  induction ws generalizing s a with
  | nil => exact h
  | cons w ws ih => exact ih (write_wf h a w) (a + 1)

/-- Reset's memory has the canonical form. -/
theorem reset_mem_wf : Memory.wf State.reset.mem := by decide

/-- What a read gives after a write (R31, R32). -/
@[simp] theorem read_write (s : State) (a b : Addr) (w : Byte) :
    (s.write a w).read b = if b = a then w else s.read b := by
  simp [State.read, State.write, BitVec.toNat_inj]

end Sys2Proof.Laws
end

