-- ==== Sys2Proof/Laws/Flags.lean ====
section
/-!
SUPPORT. The flag computations as numbers (42_arithmetic.md R120, R121) and the status byte bit by bit (10_state.md R24).
-/

namespace Sys2Proof.Laws

open Sys2Proof.Machine

/-- The formula of the pushed status byte over seven free flags. -/
def statusFormula (n v b d i z c : Bool) : Byte :=
  (flagAt n 7 ||| flagAt v 6 ||| 0x20 ||| flagAt b 4 ||| flagAt d 3 ||| flagAt i 2 ||| flagAt z 1 ||| flagAt c 0) ||| 0x30

theorem statusFormula_bits : ∀ n v b d i z c : Bool,
    statusFormula n v b d i z c = statusFormula n v false d i z c ∧
      (statusFormula n v b d i z c)[7] = n ∧ (statusFormula n v b d i z c)[6] = v ∧
      (statusFormula n v b d i z c)[5] = true ∧ (statusFormula n v b d i z c)[4] = true ∧
      (statusFormula n v b d i z c)[3] = d ∧ (statusFormula n v b d i z c)[2] = i ∧
      (statusFormula n v b d i z c)[1] = z ∧ (statusFormula n v b d i z c)[0] = c := by
  decide +kernel

/-- The pushed status byte bit by bit: bits 5 and 4 are 1, and `B` does not occur (R24). -/
theorem pushedStatus_bits (s : State) :
    s.pushedStatus[7] = s.n ∧ s.pushedStatus[6] = s.v ∧ s.pushedStatus[5] = true ∧ s.pushedStatus[4] = true ∧
      s.pushedStatus[3] = s.d ∧ s.pushedStatus[2] = s.i ∧ s.pushedStatus[1] = s.z ∧ s.pushedStatus[0] = s.c :=
  (statusFormula_bits s.n s.v s.b s.d s.i s.z s.c).2

/-- The pushed status byte does not depend on `B`. -/
theorem pushedStatus_ignores_b (s : State) (f : Bool) : ({ s with b := f } : State).pushedStatus = s.pushedStatus :=
  (statusFormula_bits s.n s.v f s.d s.i s.z s.c).1.trans (statusFormula_bits s.n s.v s.b s.d s.i s.z s.c).1.symm

/-- Pulling what was pushed gives the six flags back and leaves `B` alone (R24). -/
@[simp] theorem setP_pushedStatus (s t : State) :
    t.setP s.pushedStatus = { t with n := s.n, v := s.v, d := s.d, i := s.i, z := s.z, c := s.c } := by
  obtain ⟨h7, h6, -, -, h3, h2, h1, h0⟩ := pushedStatus_bits s
  simp [State.setP, h7, h6, h3, h2, h1, h0]

/-- The pushed status byte as a number: the six pushed flags by weight, bits 5 and 4 set. -/
theorem pushedStatus_eq (s : State) :
    s.pushedStatus = BitVec.ofNat 8 (128 * s.n.toNat + 64 * s.v.toNat + 32 + 16 + 8 * s.d.toNat + 4 * s.i.toNat +
      2 * s.z.toNat + s.c.toNat) :=
  (by decide +kernel : ∀ n v b d i z c : Bool, statusFormula n v b d i z c =
    BitVec.ofNat 8 (128 * n.toNat + 64 * v.toNat + 32 + 16 + 8 * d.toNat + 4 * i.toNat + 2 * z.toNat + c.toNat))
    s.n s.v s.b s.d s.i s.z s.c

/-- The 9-bit sum never wraps. -/
theorem sum9_toNat (a m : Byte) (carry : Bool) : (sum9 a m carry).toNat = a.toNat + m.toNat + carry.toNat := by
  have := a.isLt
  have := m.isLt
  cases carry <;> simp [sum9] <;> omega

theorem carryOut_sum9 (a m : Byte) (carry : Bool) :
    carryOut (sum9 a m carry) = decide (0xFF < a.toNat + m.toNat + carry.toNat) := by
  have hlt := (sum9 a m carry).isLt
  rw [carryOut, ← BitVec.testBit_toNat, Nat.testBit, Nat.shiftRight_eq_div_pow]
  rw [sum9_toNat] at hlt ⊢
  by_cases h : 0xFF < a.toNat + m.toNat + carry.toNat <;> simp [h] <;> omega

theorem lowByte_sum9 (a m : Byte) (carry : Bool) :
    lowByte (sum9 a m carry) = BitVec.ofNat 8 (a.toNat + m.toNat + carry.toNat) := by
  simp [lowByte, sum9_toNat, BitVec.toNat_eq]

/-- Adding the complement with the carry subtracts the operand and the borrow (R121). -/
theorem lowByte_complement (a m : Byte) (carry : Bool) :
    lowByte (sum9 a (m ^^^ 0xFF) carry) = a - m - BitVec.ofNat 8 (1 - carry.toNat) := by
  rw [lowByte_sum9, (by decide +kernel : ∀ w : Byte, w ^^^ 0xFF = ~~~w)]
  apply BitVec.eq_of_toNat_eq
  have := a.isLt
  have := m.isLt
  cases carry <;> simp <;> omega

/-- The carry of SBC is "no borrow", unsigned (R121). -/
theorem carryOut_complement (a m : Byte) (carry : Bool) :
    carryOut (sum9 a (m ^^^ 0xFF) carry) = decide (m.toNat + (1 - carry.toNat) ≤ a.toNat) := by
  rw [carryOut_sum9, (by decide +kernel : ∀ w : Byte, w ^^^ 0xFF = ~~~w), decide_eq_decide]
  have := a.isLt
  have := m.isLt
  cases carry <;> simp <;> omega

end Sys2Proof.Laws
end

