-- ==== Sys2Proof/Laws/State.lean ====
section
/-!
SUPPORT. One lemma per field per named update of the state, true by rfl.
-/

namespace Sys2Proof.Laws

open Sys2Proof.Machine

@[simp] theorem setZN_pc (s : State) (r : Byte) : (s.setZN r).pc = s.pc := rfl
@[simp] theorem setZN_ac (s : State) (r : Byte) : (s.setZN r).ac = s.ac := rfl
@[simp] theorem setZN_x (s : State) (r : Byte) : (s.setZN r).x = s.x := rfl
@[simp] theorem setZN_y (s : State) (r : Byte) : (s.setZN r).y = s.y := rfl
@[simp] theorem setZN_sp (s : State) (r : Byte) : (s.setZN r).sp = s.sp := rfl
@[simp] theorem setZN_n (s : State) (r : Byte) : (s.setZN r).n = r.msb := rfl
@[simp] theorem setZN_v (s : State) (r : Byte) : (s.setZN r).v = s.v := rfl
@[simp] theorem setZN_b (s : State) (r : Byte) : (s.setZN r).b = s.b := rfl
@[simp] theorem setZN_d (s : State) (r : Byte) : (s.setZN r).d = s.d := rfl
@[simp] theorem setZN_i (s : State) (r : Byte) : (s.setZN r).i = s.i := rfl
@[simp] theorem setZN_z (s : State) (r : Byte) : (s.setZN r).z = (r == 0x00) := rfl
@[simp] theorem setZN_c (s : State) (r : Byte) : (s.setZN r).c = s.c := rfl
@[simp] theorem setZN_stall (s : State) (r : Byte) : (s.setZN r).stall = s.stall := rfl
@[simp] theorem setZN_mem (s : State) (r : Byte) : (s.setZN r).mem = s.mem := rfl

@[simp] theorem setP_pc (s : State) (p : Byte) : (s.setP p).pc = s.pc := rfl
@[simp] theorem setP_ac (s : State) (p : Byte) : (s.setP p).ac = s.ac := rfl
@[simp] theorem setP_x (s : State) (p : Byte) : (s.setP p).x = s.x := rfl
@[simp] theorem setP_y (s : State) (p : Byte) : (s.setP p).y = s.y := rfl
@[simp] theorem setP_sp (s : State) (p : Byte) : (s.setP p).sp = s.sp := rfl
@[simp] theorem setP_n (s : State) (p : Byte) : (s.setP p).n = p.getLsbD 7 := rfl
@[simp] theorem setP_v (s : State) (p : Byte) : (s.setP p).v = p.getLsbD 6 := rfl
@[simp] theorem setP_b (s : State) (p : Byte) : (s.setP p).b = s.b := rfl
@[simp] theorem setP_d (s : State) (p : Byte) : (s.setP p).d = p.getLsbD 3 := rfl
@[simp] theorem setP_i (s : State) (p : Byte) : (s.setP p).i = p.getLsbD 2 := rfl
@[simp] theorem setP_z (s : State) (p : Byte) : (s.setP p).z = p.getLsbD 1 := rfl
@[simp] theorem setP_c (s : State) (p : Byte) : (s.setP p).c = p.getLsbD 0 := rfl
@[simp] theorem setP_stall (s : State) (p : Byte) : (s.setP p).stall = s.stall := rfl
@[simp] theorem setP_mem (s : State) (p : Byte) : (s.setP p).mem = s.mem := rfl

@[simp] theorem write_pc (s : State) (a : Addr) (w : Byte) : (s.write a w).pc = s.pc := rfl
@[simp] theorem write_ac (s : State) (a : Addr) (w : Byte) : (s.write a w).ac = s.ac := rfl
@[simp] theorem write_x (s : State) (a : Addr) (w : Byte) : (s.write a w).x = s.x := rfl
@[simp] theorem write_y (s : State) (a : Addr) (w : Byte) : (s.write a w).y = s.y := rfl
@[simp] theorem write_sp (s : State) (a : Addr) (w : Byte) : (s.write a w).sp = s.sp := rfl
@[simp] theorem write_n (s : State) (a : Addr) (w : Byte) : (s.write a w).n = s.n := rfl
@[simp] theorem write_v (s : State) (a : Addr) (w : Byte) : (s.write a w).v = s.v := rfl
@[simp] theorem write_b (s : State) (a : Addr) (w : Byte) : (s.write a w).b = s.b := rfl
@[simp] theorem write_d (s : State) (a : Addr) (w : Byte) : (s.write a w).d = s.d := rfl
@[simp] theorem write_i (s : State) (a : Addr) (w : Byte) : (s.write a w).i = s.i := rfl
@[simp] theorem write_z (s : State) (a : Addr) (w : Byte) : (s.write a w).z = s.z := rfl
@[simp] theorem write_c (s : State) (a : Addr) (w : Byte) : (s.write a w).c = s.c := rfl
@[simp] theorem write_stall (s : State) (a : Addr) (w : Byte) : (s.write a w).stall = s.stall := rfl
@[simp] theorem write_mem (s : State) (a : Addr) (w : Byte) : (s.write a w).mem = Memory.writeKey s.mem a.toNat w := rfl

@[simp] theorem push_pc (s : State) (w : Byte) : (s.push w).pc = s.pc := rfl
@[simp] theorem push_ac (s : State) (w : Byte) : (s.push w).ac = s.ac := rfl
@[simp] theorem push_x (s : State) (w : Byte) : (s.push w).x = s.x := rfl
@[simp] theorem push_y (s : State) (w : Byte) : (s.push w).y = s.y := rfl
@[simp] theorem push_sp (s : State) (w : Byte) : (s.push w).sp = s.sp - 1 := rfl
@[simp] theorem push_n (s : State) (w : Byte) : (s.push w).n = s.n := rfl
@[simp] theorem push_v (s : State) (w : Byte) : (s.push w).v = s.v := rfl
@[simp] theorem push_b (s : State) (w : Byte) : (s.push w).b = s.b := rfl
@[simp] theorem push_d (s : State) (w : Byte) : (s.push w).d = s.d := rfl
@[simp] theorem push_i (s : State) (w : Byte) : (s.push w).i = s.i := rfl
@[simp] theorem push_z (s : State) (w : Byte) : (s.push w).z = s.z := rfl
@[simp] theorem push_c (s : State) (w : Byte) : (s.push w).c = s.c := rfl
@[simp] theorem push_stall (s : State) (w : Byte) : (s.push w).stall = s.stall := rfl
@[simp] theorem push_mem (s : State) (w : Byte) : (s.push w).mem = Memory.writeKey s.mem (stackAddr s.sp).toNat w := rfl

@[simp] theorem advance_pc (s : State) (k : Nat) : (s.advance k).pc = s.pc + BitVec.ofNat 16 k := rfl
@[simp] theorem advance_ac (s : State) (k : Nat) : (s.advance k).ac = s.ac := rfl
@[simp] theorem advance_x (s : State) (k : Nat) : (s.advance k).x = s.x := rfl
@[simp] theorem advance_y (s : State) (k : Nat) : (s.advance k).y = s.y := rfl
@[simp] theorem advance_sp (s : State) (k : Nat) : (s.advance k).sp = s.sp := rfl
@[simp] theorem advance_n (s : State) (k : Nat) : (s.advance k).n = s.n := rfl
@[simp] theorem advance_v (s : State) (k : Nat) : (s.advance k).v = s.v := rfl
@[simp] theorem advance_b (s : State) (k : Nat) : (s.advance k).b = s.b := rfl
@[simp] theorem advance_d (s : State) (k : Nat) : (s.advance k).d = s.d := rfl
@[simp] theorem advance_i (s : State) (k : Nat) : (s.advance k).i = s.i := rfl
@[simp] theorem advance_z (s : State) (k : Nat) : (s.advance k).z = s.z := rfl
@[simp] theorem advance_c (s : State) (k : Nat) : (s.advance k).c = s.c := rfl
@[simp] theorem advance_stall (s : State) (k : Nat) : (s.advance k).stall = s.stall := rfl
@[simp] theorem advance_mem (s : State) (k : Nat) : (s.advance k).mem = s.mem := rfl

@[simp] theorem push16_pc (s : State) (a : Addr) : (s.push16 a).pc = s.pc := rfl
@[simp] theorem push16_ac (s : State) (a : Addr) : (s.push16 a).ac = s.ac := rfl
@[simp] theorem push16_x (s : State) (a : Addr) : (s.push16 a).x = s.x := rfl
@[simp] theorem push16_y (s : State) (a : Addr) : (s.push16 a).y = s.y := rfl
@[simp] theorem push16_sp (s : State) (a : Addr) : (s.push16 a).sp = s.sp - 1 - 1 := rfl
@[simp] theorem push16_n (s : State) (a : Addr) : (s.push16 a).n = s.n := rfl
@[simp] theorem push16_v (s : State) (a : Addr) : (s.push16 a).v = s.v := rfl
@[simp] theorem push16_b (s : State) (a : Addr) : (s.push16 a).b = s.b := rfl
@[simp] theorem push16_d (s : State) (a : Addr) : (s.push16 a).d = s.d := rfl
@[simp] theorem push16_i (s : State) (a : Addr) : (s.push16 a).i = s.i := rfl
@[simp] theorem push16_z (s : State) (a : Addr) : (s.push16 a).z = s.z := rfl
@[simp] theorem push16_c (s : State) (a : Addr) : (s.push16 a).c = s.c := rfl
@[simp] theorem push16_stall (s : State) (a : Addr) : (s.push16 a).stall = s.stall := rfl
@[simp] theorem push16_mem (s : State) (a : Addr) : (s.push16 a).mem = Memory.writeKey (Memory.writeKey s.mem (stackAddr s.sp).toNat (hi a)) (stackAddr (s.sp - 1)).toNat (lo a) := rfl

@[simp] theorem pull_pc (s : State) : s.pull.2.pc = s.pc := rfl
@[simp] theorem pull_ac (s : State) : s.pull.2.ac = s.ac := rfl
@[simp] theorem pull_x (s : State) : s.pull.2.x = s.x := rfl
@[simp] theorem pull_y (s : State) : s.pull.2.y = s.y := rfl
@[simp] theorem pull_sp (s : State) : s.pull.2.sp = s.sp + 1 := rfl
@[simp] theorem pull_n (s : State) : s.pull.2.n = s.n := rfl
@[simp] theorem pull_v (s : State) : s.pull.2.v = s.v := rfl
@[simp] theorem pull_b (s : State) : s.pull.2.b = s.b := rfl
@[simp] theorem pull_d (s : State) : s.pull.2.d = s.d := rfl
@[simp] theorem pull_i (s : State) : s.pull.2.i = s.i := rfl
@[simp] theorem pull_z (s : State) : s.pull.2.z = s.z := rfl
@[simp] theorem pull_c (s : State) : s.pull.2.c = s.c := rfl
@[simp] theorem pull_stall (s : State) : s.pull.2.stall = s.stall := rfl
@[simp] theorem pull_mem (s : State) : s.pull.2.mem = s.mem := rfl

@[simp] theorem pull16_pc (s : State) : s.pull16.2.pc = s.pc := rfl
@[simp] theorem pull16_ac (s : State) : s.pull16.2.ac = s.ac := rfl
@[simp] theorem pull16_x (s : State) : s.pull16.2.x = s.x := rfl
@[simp] theorem pull16_y (s : State) : s.pull16.2.y = s.y := rfl
@[simp] theorem pull16_sp (s : State) : s.pull16.2.sp = s.sp + 1 + 1 := rfl
@[simp] theorem pull16_n (s : State) : s.pull16.2.n = s.n := rfl
@[simp] theorem pull16_v (s : State) : s.pull16.2.v = s.v := rfl
@[simp] theorem pull16_b (s : State) : s.pull16.2.b = s.b := rfl
@[simp] theorem pull16_d (s : State) : s.pull16.2.d = s.d := rfl
@[simp] theorem pull16_i (s : State) : s.pull16.2.i = s.i := rfl
@[simp] theorem pull16_z (s : State) : s.pull16.2.z = s.z := rfl
@[simp] theorem pull16_c (s : State) : s.pull16.2.c = s.c := rfl
@[simp] theorem pull16_stall (s : State) : s.pull16.2.stall = s.stall := rfl
@[simp] theorem pull16_mem (s : State) : s.pull16.2.mem = s.mem := rfl

@[simp] theorem pull_value (s : State) : s.pull.1 = s.read (stackAddr (s.sp + 1)) := rfl
@[simp] theorem pull16_value (s : State) :
    s.pull16.1 = fromBytes (s.read (stackAddr (s.sp + 1 + 1))) (s.read (stackAddr (s.sp + 1))) := rfl

/-! Updates that leave memory alone leave every read alone. -/

@[simp] theorem setZN_read (s : State) (r : Byte) (a : Addr) : (s.setZN r).read a = s.read a := rfl
@[simp] theorem setZN_read16zp (s : State) (r : Byte) (z : Byte) : (s.setZN r).read16zp z = s.read16zp z := rfl
@[simp] theorem setZN_readIndirect (s : State) (r : Byte) (q : Addr) : (s.setZN r).readIndirect q = s.readIndirect q := rfl
@[simp] theorem setP_read (s : State) (p : Byte) (a : Addr) : (s.setP p).read a = s.read a := rfl
@[simp] theorem setP_read16zp (s : State) (p : Byte) (z : Byte) : (s.setP p).read16zp z = s.read16zp z := rfl
@[simp] theorem setP_readIndirect (s : State) (p : Byte) (q : Addr) : (s.setP p).readIndirect q = s.readIndirect q := rfl
@[simp] theorem advance_read (s : State) (k : Nat) (a : Addr) : (s.advance k).read a = s.read a := rfl
@[simp] theorem advance_read16zp (s : State) (k : Nat) (z : Byte) : (s.advance k).read16zp z = s.read16zp z := rfl
@[simp] theorem advance_readIndirect (s : State) (k : Nat) (q : Addr) : (s.advance k).readIndirect q = s.readIndirect q := rfl
@[simp] theorem pull_read (s : State) (a : Addr) : s.pull.2.read a = s.read a := rfl
@[simp] theorem pull16_read (s : State) (a : Addr) : s.pull16.2.read a = s.read a := rfl

end Sys2Proof.Laws
end

