-- ==== Sys2Proof/Laws/Ops.lean ====
section
/-!
SUPPORT. What a push leaves to be read, what a pull gives back after it (40_engine_and_addressing.md R99), and all that the
trap entry and the trap return do (60_exceptions.md R206, R207).
-/

namespace Sys2Proof.Laws

open Sys2Proof.Machine

@[simp] theorem push_read (s : State) (w : Byte) (a : Addr) :
    (s.push w).read a = if a = stackAddr s.sp then w else s.read a := by
  show ((s.write (stackAddr s.sp) w)).read a = _
  simp

theorem push16_read (s : State) (t a : Addr) :
    (s.push16 t).read a =
      if a = stackAddr (s.sp - 1) then lo t else if a = stackAddr s.sp then hi t else s.read a := by
  simp [State.push16]

/-- A stack address never reaches the BRK vector (45_stack_flag_system.md R182). -/
theorem stackAddr_ne_vector (sp : Byte) : stackAddr sp ≠ Config.brkVector ∧ stackAddr sp ≠ Config.brkVector + 1 := by
  have h := stackAddr_toNat sp
  have := sp.isLt
  constructor <;> (intro e; rw [e] at h; simp at h; omega)

/-- A pull after a push gives the byte back and restores `SP`. -/
theorem pull_push (s : State) (w : Byte) : (s.push w).pull.1 = w ∧ (s.push w).pull.2.sp = s.sp := by
  simp

/-- Memory after the trap entry: the status byte, the return address low and high, each at its stack address. -/
theorem takeTrap_read (s : State) (a : Addr) :
    s.takeTrap.read a =
      if a = stackAddr (s.sp - 1 - 1) then s.pushedStatus
      else if a = stackAddr (s.sp - 1) then lo (s.pc + 1)
      else if a = stackAddr s.sp then hi (s.pc + 1)
      else s.read a := by
  have hm : s.takeTrap.mem = (State.push { s.push16 (s.pc + 1) with b := true } s.pushedStatus).mem := by
    rw [← pushedStatus_ignores_b s true]
    rfl
  rw [State.read, hm]
  refine Eq.trans (push_read { s.push16 (s.pc + 1) with b := true } _ a) ?_
  rw [← push16_read]
  rfl

/-- Registers and flags after the trap entry. The pushes cannot reach the vector. -/
theorem takeTrap_eq (s : State) :
    s.takeTrap = { s with
      pc := fromBytes (s.read (Config.brkVector + 1)) (s.read Config.brkVector), sp := s.sp - 1 - 1 - 1, b := true, i := true
      mem := s.takeTrap.mem } := by
  have h : fromBytes (s.read (Config.brkVector + 1)) (s.read Config.brkVector) = s.takeTrap.pc := by
    have hv := fun p => (stackAddr_ne_vector p).1.symm
    have hv1 := fun p => (stackAddr_ne_vector p).2.symm
    show _ = fromBytes (s.takeTrap.read (Config.brkVector + 1)) (s.takeTrap.read Config.brkVector)
    rw [takeTrap_read, takeTrap_read, if_neg (hv1 _), if_neg (hv1 _), if_neg (hv1 _), if_neg (hv _), if_neg (hv _),
      if_neg (hv _)]
  rw [h]
  rfl

/-- All that the trap return does. -/
theorem returnFromTrap_eq (s : State) :
    s.returnFromTrap =
      { s.setP (s.read (stackAddr (s.sp + 1))) with
        pc := fromBytes (s.read (stackAddr (s.sp + 1 + 1 + 1))) (s.read (stackAddr (s.sp + 1 + 1)))
        sp := s.sp + 1 + 1 + 1 } := rfl

end Sys2Proof.Laws
end

