-- ==== Sys2Proof/Laws/Bus.lean ====
section
/-!
SUPPORT. What the access view can do: the fetch reads change no memory and are always answered as the Bus answers them,
and a write is what the next read of its address gives.
-/

namespace Sys2Proof.Laws

open Sys2Proof.Machine

/-- A read access depends on the memory alone. -/
theorem rdAt_congr {s s' : State} (h : s'.mem = s.mem) (a : Addr) : s'.rdAt a = s.rdAt a := by
  simp only [State.rdAt, State.read, h]

@[simp] theorem rdAt_advance (s : State) (size : Nat) (a : Addr) : (s.advance size).rdAt a = s.rdAt a := rfl

@[simp] theorem fetchAccesses_length (size : Nat) (s : State) : (fetchAccesses size s).length = size := by
  simp [fetchAccesses]

/-- The fetch reads leave the memory as it is (R32). -/
theorem fetchAccesses_apply (size : Nat) (s : State) (rest : List Access) (m : Memory) :
    (fetchAccesses size s ++ rest).foldl Access.apply m = rest.foldl Access.apply m := by
  rw [List.foldl_append, fetchAccesses]
  congr 1
  induction List.range size generalizing m with
  | nil => rfl
  | cons k l ih => exact ih m

/-- The fetch reads are what the Bus answers, so only the accesses after them can disagree with it (R42). -/
theorem fetchAccesses_consistent (size : Nat) (s : State) (rest : List Access) :
    Access.consistent s.mem (fetchAccesses size s ++ rest) = Access.consistent s.mem rest := by
  rw [fetchAccesses]
  induction List.range size with
  | nil => rfl
  | cons k l ih =>
    simpa only [List.map_cons, List.cons_append, State.rdAt, Access.consistent, State.read, beq_self_eq_true,
      Bool.true_and] using ih

/-- The return address JSR pushes is that of its last byte (R159). -/
theorem jsr_return_address (target : Addr) (s : State) : ((Instr.jsr target).atOperand s).pc - 1 = s.pc + 2 := by
  show s.pc + 3 - 1 = s.pc + 2
  bv_omega

/-- The return address BRK pushes skips the byte after the opcode (R182). -/
theorem brk_return_address (s : State) : (Instr.brk.atOperand s).pc + 1 = s.pc + 2 := by
  show s.pc + 1 + 1 = s.pc + 2
  bv_omega

end Sys2Proof.Laws
end

