-- ==== Sys2Proof/Laws/PerInstr.lean ====
section
/-!
SUPPORT. The per-instruction family `Encodes`: the decoder gives back the instruction from its own opcode byte and operand
bytes, one lemma per constructor.
-/

namespace Sys2Proof.Laws

/-- The decoder reads instruction `i` back from the Operation that stands for it. -/
def Encodes.Statement (i : Instr) : Prop :=
  i.toOperation.instr = some i

/-- A 16-bit form: its operand is put together again from its low and high bytes. -/
theorem encodes_word (w : Addr) (f : Addr → Instr)
    (h : (f w).toOperation.instr = some (f (Machine.fromBytes (Machine.hi w) (Machine.lo w)))) :
    Encodes.Statement (f w) := by
  rw [Encodes.Statement, h, fromBytes_hi_lo]

/-- The row and the column of an opcode byte in the matrix of 30_encoding.md R55. -/
theorem row_column (h l : Nat) (hh : h < 16) (hl : l < 16) :
    (BitVec.ofNat 8 (h * 16 + l)).toNat / 16 = h ∧ (BitVec.ofNat 8 (h * 16 + l)).toNat % 16 = l := by
  rw [BitVec.toNat_ofNat, Nat.mod_eq_of_lt (by omega)]
  omega

theorem instrOf_row0 (l : Nat) (hl : l < 16) (b1 b2 : Byte) :
    instrOf (BitVec.ofNat 8 (0x0 * 16 + l)) b1 b2 = matrixRow0 b1 (Machine.fromBytes b2 b1) l := by
  simp only [instrOf, row_column 0x0 l (by decide) hl]

theorem instrOf_row1 (l : Nat) (hl : l < 16) (b1 b2 : Byte) :
    instrOf (BitVec.ofNat 8 (0x1 * 16 + l)) b1 b2 = matrixRow1 b1 (Machine.fromBytes b2 b1) l := by
  simp only [instrOf, row_column 0x1 l (by decide) hl]

theorem instrOf_row2 (l : Nat) (hl : l < 16) (b1 b2 : Byte) :
    instrOf (BitVec.ofNat 8 (0x2 * 16 + l)) b1 b2 = matrixRow2 b1 (Machine.fromBytes b2 b1) l := by
  simp only [instrOf, row_column 0x2 l (by decide) hl]

theorem instrOf_row3 (l : Nat) (hl : l < 16) (b1 b2 : Byte) :
    instrOf (BitVec.ofNat 8 (0x3 * 16 + l)) b1 b2 = matrixRow3 b1 (Machine.fromBytes b2 b1) l := by
  simp only [instrOf, row_column 0x3 l (by decide) hl]

theorem instrOf_row4 (l : Nat) (hl : l < 16) (b1 b2 : Byte) :
    instrOf (BitVec.ofNat 8 (0x4 * 16 + l)) b1 b2 = matrixRow4 b1 (Machine.fromBytes b2 b1) l := by
  simp only [instrOf, row_column 0x4 l (by decide) hl]

theorem instrOf_row5 (l : Nat) (hl : l < 16) (b1 b2 : Byte) :
    instrOf (BitVec.ofNat 8 (0x5 * 16 + l)) b1 b2 = matrixRow5 b1 (Machine.fromBytes b2 b1) l := by
  simp only [instrOf, row_column 0x5 l (by decide) hl]

theorem instrOf_row6 (l : Nat) (hl : l < 16) (b1 b2 : Byte) :
    instrOf (BitVec.ofNat 8 (0x6 * 16 + l)) b1 b2 = matrixRow6 b1 (Machine.fromBytes b2 b1) l := by
  simp only [instrOf, row_column 0x6 l (by decide) hl]

theorem instrOf_row7 (l : Nat) (hl : l < 16) (b1 b2 : Byte) :
    instrOf (BitVec.ofNat 8 (0x7 * 16 + l)) b1 b2 = matrixRow7 b1 (Machine.fromBytes b2 b1) l := by
  simp only [instrOf, row_column 0x7 l (by decide) hl]

theorem instrOf_row8 (l : Nat) (hl : l < 16) (b1 b2 : Byte) :
    instrOf (BitVec.ofNat 8 (0x8 * 16 + l)) b1 b2 = matrixRow8 b1 (Machine.fromBytes b2 b1) l := by
  simp only [instrOf, row_column 0x8 l (by decide) hl]

theorem instrOf_row9 (l : Nat) (hl : l < 16) (b1 b2 : Byte) :
    instrOf (BitVec.ofNat 8 (0x9 * 16 + l)) b1 b2 = matrixRow9 b1 (Machine.fromBytes b2 b1) l := by
  simp only [instrOf, row_column 0x9 l (by decide) hl]

theorem instrOf_rowA (l : Nat) (hl : l < 16) (b1 b2 : Byte) :
    instrOf (BitVec.ofNat 8 (0xA * 16 + l)) b1 b2 = matrixRowA b1 (Machine.fromBytes b2 b1) l := by
  simp only [instrOf, row_column 0xA l (by decide) hl]

theorem instrOf_rowB (l : Nat) (hl : l < 16) (b1 b2 : Byte) :
    instrOf (BitVec.ofNat 8 (0xB * 16 + l)) b1 b2 = matrixRowB b1 (Machine.fromBytes b2 b1) l := by
  simp only [instrOf, row_column 0xB l (by decide) hl]

theorem instrOf_rowC (l : Nat) (hl : l < 16) (b1 b2 : Byte) :
    instrOf (BitVec.ofNat 8 (0xC * 16 + l)) b1 b2 = matrixRowC b1 (Machine.fromBytes b2 b1) l := by
  simp only [instrOf, row_column 0xC l (by decide) hl]

theorem instrOf_rowD (l : Nat) (hl : l < 16) (b1 b2 : Byte) :
    instrOf (BitVec.ofNat 8 (0xD * 16 + l)) b1 b2 = matrixRowD b1 (Machine.fromBytes b2 b1) l := by
  simp only [instrOf, row_column 0xD l (by decide) hl]

theorem instrOf_rowE (l : Nat) (hl : l < 16) (b1 b2 : Byte) :
    instrOf (BitVec.ofNat 8 (0xE * 16 + l)) b1 b2 = matrixRowE b1 (Machine.fromBytes b2 b1) l := by
  simp only [instrOf, row_column 0xE l (by decide) hl]

theorem instrOf_rowF (l : Nat) (hl : l < 16) (b1 b2 : Byte) :
    instrOf (BitVec.ofNat 8 (0xF * 16 + l)) b1 b2 = matrixRowF b1 (Machine.fromBytes b2 b1) l := by
  simp only [instrOf, row_column 0xF l (by decide) hl]

theorem Encodes.ldaImm (b : Byte) : Encodes.Statement (.ldaImm b) :=
  instrOf_rowA 0x9 (by decide) b 0
theorem Encodes.ldaZp (b : Byte) : Encodes.Statement (.ldaZp b) :=
  instrOf_rowA 0x5 (by decide) b 0
theorem Encodes.ldaZpx (b : Byte) : Encodes.Statement (.ldaZpx b) :=
  instrOf_rowB 0x5 (by decide) b 0
theorem Encodes.ldaAbs (a : Addr) : Encodes.Statement (.ldaAbs a) :=
  encodes_word a _ (instrOf_rowA 0xD (by decide) _ _)
theorem Encodes.ldaAbx (a : Addr) : Encodes.Statement (.ldaAbx a) :=
  encodes_word a _ (instrOf_rowB 0xD (by decide) _ _)
theorem Encodes.ldaAby (a : Addr) : Encodes.Statement (.ldaAby a) :=
  encodes_word a _ (instrOf_rowB 0x9 (by decide) _ _)
theorem Encodes.ldaIzx (b : Byte) : Encodes.Statement (.ldaIzx b) :=
  instrOf_rowA 0x1 (by decide) b 0
theorem Encodes.ldaIzy (b : Byte) : Encodes.Statement (.ldaIzy b) :=
  instrOf_rowB 0x1 (by decide) b 0
theorem Encodes.ldxImm (b : Byte) : Encodes.Statement (.ldxImm b) :=
  instrOf_rowA 0x2 (by decide) b 0
theorem Encodes.ldxZp (b : Byte) : Encodes.Statement (.ldxZp b) :=
  instrOf_rowA 0x6 (by decide) b 0
theorem Encodes.ldxZpy (b : Byte) : Encodes.Statement (.ldxZpy b) :=
  instrOf_rowB 0x6 (by decide) b 0
theorem Encodes.ldxAbs (a : Addr) : Encodes.Statement (.ldxAbs a) :=
  encodes_word a _ (instrOf_rowA 0xE (by decide) _ _)
theorem Encodes.ldxAby (a : Addr) : Encodes.Statement (.ldxAby a) :=
  encodes_word a _ (instrOf_rowB 0xE (by decide) _ _)
theorem Encodes.ldyImm (b : Byte) : Encodes.Statement (.ldyImm b) :=
  instrOf_rowA 0x0 (by decide) b 0
theorem Encodes.ldyZp (b : Byte) : Encodes.Statement (.ldyZp b) :=
  instrOf_rowA 0x4 (by decide) b 0
theorem Encodes.ldyZpx (b : Byte) : Encodes.Statement (.ldyZpx b) :=
  instrOf_rowB 0x4 (by decide) b 0
theorem Encodes.ldyAbs (a : Addr) : Encodes.Statement (.ldyAbs a) :=
  encodes_word a _ (instrOf_rowA 0xC (by decide) _ _)
theorem Encodes.ldyAbx (a : Addr) : Encodes.Statement (.ldyAbx a) :=
  encodes_word a _ (instrOf_rowB 0xC (by decide) _ _)
theorem Encodes.staZp (b : Byte) : Encodes.Statement (.staZp b) :=
  instrOf_row8 0x5 (by decide) b 0
theorem Encodes.staZpx (b : Byte) : Encodes.Statement (.staZpx b) :=
  instrOf_row9 0x5 (by decide) b 0
theorem Encodes.staAbs (a : Addr) : Encodes.Statement (.staAbs a) :=
  encodes_word a _ (instrOf_row8 0xD (by decide) _ _)
theorem Encodes.staAbx (a : Addr) : Encodes.Statement (.staAbx a) :=
  encodes_word a _ (instrOf_row9 0xD (by decide) _ _)
theorem Encodes.staAby (a : Addr) : Encodes.Statement (.staAby a) :=
  encodes_word a _ (instrOf_row9 0x9 (by decide) _ _)
theorem Encodes.staIzx (b : Byte) : Encodes.Statement (.staIzx b) :=
  instrOf_row8 0x1 (by decide) b 0
theorem Encodes.staIzy (b : Byte) : Encodes.Statement (.staIzy b) :=
  instrOf_row9 0x1 (by decide) b 0
theorem Encodes.stxZp (b : Byte) : Encodes.Statement (.stxZp b) :=
  instrOf_row8 0x6 (by decide) b 0
theorem Encodes.stxZpy (b : Byte) : Encodes.Statement (.stxZpy b) :=
  instrOf_row9 0x6 (by decide) b 0
theorem Encodes.stxAbs (a : Addr) : Encodes.Statement (.stxAbs a) :=
  encodes_word a _ (instrOf_row8 0xE (by decide) _ _)
theorem Encodes.styZp (b : Byte) : Encodes.Statement (.styZp b) :=
  instrOf_row8 0x4 (by decide) b 0
theorem Encodes.styZpx (b : Byte) : Encodes.Statement (.styZpx b) :=
  instrOf_row9 0x4 (by decide) b 0
theorem Encodes.styAbs (a : Addr) : Encodes.Statement (.styAbs a) :=
  encodes_word a _ (instrOf_row8 0xC (by decide) _ _)
theorem Encodes.tax : Encodes.Statement (.tax) :=
  instrOf_rowA 0xA (by decide) 0 0
theorem Encodes.tay : Encodes.Statement (.tay) :=
  instrOf_rowA 0x8 (by decide) 0 0
theorem Encodes.tsx : Encodes.Statement (.tsx) :=
  instrOf_rowB 0xA (by decide) 0 0
theorem Encodes.txa : Encodes.Statement (.txa) :=
  instrOf_row8 0xA (by decide) 0 0
theorem Encodes.txs : Encodes.Statement (.txs) :=
  instrOf_row9 0xA (by decide) 0 0
theorem Encodes.tya : Encodes.Statement (.tya) :=
  instrOf_row9 0x8 (by decide) 0 0
theorem Encodes.adcImm (b : Byte) : Encodes.Statement (.adcImm b) :=
  instrOf_row6 0x9 (by decide) b 0
theorem Encodes.adcZp (b : Byte) : Encodes.Statement (.adcZp b) :=
  instrOf_row6 0x5 (by decide) b 0
theorem Encodes.adcZpx (b : Byte) : Encodes.Statement (.adcZpx b) :=
  instrOf_row7 0x5 (by decide) b 0
theorem Encodes.adcAbs (a : Addr) : Encodes.Statement (.adcAbs a) :=
  encodes_word a _ (instrOf_row6 0xD (by decide) _ _)
theorem Encodes.adcAbx (a : Addr) : Encodes.Statement (.adcAbx a) :=
  encodes_word a _ (instrOf_row7 0xD (by decide) _ _)
theorem Encodes.adcAby (a : Addr) : Encodes.Statement (.adcAby a) :=
  encodes_word a _ (instrOf_row7 0x9 (by decide) _ _)
theorem Encodes.adcIzx (b : Byte) : Encodes.Statement (.adcIzx b) :=
  instrOf_row6 0x1 (by decide) b 0
theorem Encodes.adcIzy (b : Byte) : Encodes.Statement (.adcIzy b) :=
  instrOf_row7 0x1 (by decide) b 0
theorem Encodes.sbcImm (b : Byte) : Encodes.Statement (.sbcImm b) :=
  instrOf_rowE 0x9 (by decide) b 0
theorem Encodes.sbcZp (b : Byte) : Encodes.Statement (.sbcZp b) :=
  instrOf_rowE 0x5 (by decide) b 0
theorem Encodes.sbcZpx (b : Byte) : Encodes.Statement (.sbcZpx b) :=
  instrOf_rowF 0x5 (by decide) b 0
theorem Encodes.sbcAbs (a : Addr) : Encodes.Statement (.sbcAbs a) :=
  encodes_word a _ (instrOf_rowE 0xD (by decide) _ _)
theorem Encodes.sbcAbx (a : Addr) : Encodes.Statement (.sbcAbx a) :=
  encodes_word a _ (instrOf_rowF 0xD (by decide) _ _)
theorem Encodes.sbcAby (a : Addr) : Encodes.Statement (.sbcAby a) :=
  encodes_word a _ (instrOf_rowF 0x9 (by decide) _ _)
theorem Encodes.sbcIzx (b : Byte) : Encodes.Statement (.sbcIzx b) :=
  instrOf_rowE 0x1 (by decide) b 0
theorem Encodes.sbcIzy (b : Byte) : Encodes.Statement (.sbcIzy b) :=
  instrOf_rowF 0x1 (by decide) b 0
theorem Encodes.cmpImm (b : Byte) : Encodes.Statement (.cmpImm b) :=
  instrOf_rowC 0x9 (by decide) b 0
theorem Encodes.cmpZp (b : Byte) : Encodes.Statement (.cmpZp b) :=
  instrOf_rowC 0x5 (by decide) b 0
theorem Encodes.cmpZpx (b : Byte) : Encodes.Statement (.cmpZpx b) :=
  instrOf_rowD 0x5 (by decide) b 0
theorem Encodes.cmpAbs (a : Addr) : Encodes.Statement (.cmpAbs a) :=
  encodes_word a _ (instrOf_rowC 0xD (by decide) _ _)
theorem Encodes.cmpAbx (a : Addr) : Encodes.Statement (.cmpAbx a) :=
  encodes_word a _ (instrOf_rowD 0xD (by decide) _ _)
theorem Encodes.cmpAby (a : Addr) : Encodes.Statement (.cmpAby a) :=
  encodes_word a _ (instrOf_rowD 0x9 (by decide) _ _)
theorem Encodes.cmpIzx (b : Byte) : Encodes.Statement (.cmpIzx b) :=
  instrOf_rowC 0x1 (by decide) b 0
theorem Encodes.cmpIzy (b : Byte) : Encodes.Statement (.cmpIzy b) :=
  instrOf_rowD 0x1 (by decide) b 0
theorem Encodes.cpxImm (b : Byte) : Encodes.Statement (.cpxImm b) :=
  instrOf_rowE 0x0 (by decide) b 0
theorem Encodes.cpxZp (b : Byte) : Encodes.Statement (.cpxZp b) :=
  instrOf_rowE 0x4 (by decide) b 0
theorem Encodes.cpxAbs (a : Addr) : Encodes.Statement (.cpxAbs a) :=
  encodes_word a _ (instrOf_rowE 0xC (by decide) _ _)
theorem Encodes.cpyImm (b : Byte) : Encodes.Statement (.cpyImm b) :=
  instrOf_rowC 0x0 (by decide) b 0
theorem Encodes.cpyZp (b : Byte) : Encodes.Statement (.cpyZp b) :=
  instrOf_rowC 0x4 (by decide) b 0
theorem Encodes.cpyAbs (a : Addr) : Encodes.Statement (.cpyAbs a) :=
  encodes_word a _ (instrOf_rowC 0xC (by decide) _ _)
theorem Encodes.incZp (b : Byte) : Encodes.Statement (.incZp b) :=
  instrOf_rowE 0x6 (by decide) b 0
theorem Encodes.incZpx (b : Byte) : Encodes.Statement (.incZpx b) :=
  instrOf_rowF 0x6 (by decide) b 0
theorem Encodes.incAbs (a : Addr) : Encodes.Statement (.incAbs a) :=
  encodes_word a _ (instrOf_rowE 0xE (by decide) _ _)
theorem Encodes.incAbx (a : Addr) : Encodes.Statement (.incAbx a) :=
  encodes_word a _ (instrOf_rowF 0xE (by decide) _ _)
theorem Encodes.inx : Encodes.Statement (.inx) :=
  instrOf_rowE 0x8 (by decide) 0 0
theorem Encodes.iny : Encodes.Statement (.iny) :=
  instrOf_rowC 0x8 (by decide) 0 0
theorem Encodes.decZp (b : Byte) : Encodes.Statement (.decZp b) :=
  instrOf_rowC 0x6 (by decide) b 0
theorem Encodes.decZpx (b : Byte) : Encodes.Statement (.decZpx b) :=
  instrOf_rowD 0x6 (by decide) b 0
theorem Encodes.decAbs (a : Addr) : Encodes.Statement (.decAbs a) :=
  encodes_word a _ (instrOf_rowC 0xE (by decide) _ _)
theorem Encodes.decAbx (a : Addr) : Encodes.Statement (.decAbx a) :=
  encodes_word a _ (instrOf_rowD 0xE (by decide) _ _)
theorem Encodes.dex : Encodes.Statement (.dex) :=
  instrOf_rowC 0xA (by decide) 0 0
theorem Encodes.dey : Encodes.Statement (.dey) :=
  instrOf_row8 0x8 (by decide) 0 0
theorem Encodes.andImm (b : Byte) : Encodes.Statement (.andImm b) :=
  instrOf_row2 0x9 (by decide) b 0
theorem Encodes.andZp (b : Byte) : Encodes.Statement (.andZp b) :=
  instrOf_row2 0x5 (by decide) b 0
theorem Encodes.andZpx (b : Byte) : Encodes.Statement (.andZpx b) :=
  instrOf_row3 0x5 (by decide) b 0
theorem Encodes.andAbs (a : Addr) : Encodes.Statement (.andAbs a) :=
  encodes_word a _ (instrOf_row2 0xD (by decide) _ _)
theorem Encodes.andAbx (a : Addr) : Encodes.Statement (.andAbx a) :=
  encodes_word a _ (instrOf_row3 0xD (by decide) _ _)
theorem Encodes.andAby (a : Addr) : Encodes.Statement (.andAby a) :=
  encodes_word a _ (instrOf_row3 0x9 (by decide) _ _)
theorem Encodes.andIzx (b : Byte) : Encodes.Statement (.andIzx b) :=
  instrOf_row2 0x1 (by decide) b 0
theorem Encodes.andIzy (b : Byte) : Encodes.Statement (.andIzy b) :=
  instrOf_row3 0x1 (by decide) b 0
theorem Encodes.oraImm (b : Byte) : Encodes.Statement (.oraImm b) :=
  instrOf_row0 0x9 (by decide) b 0
theorem Encodes.oraZp (b : Byte) : Encodes.Statement (.oraZp b) :=
  instrOf_row0 0x5 (by decide) b 0
theorem Encodes.oraZpx (b : Byte) : Encodes.Statement (.oraZpx b) :=
  instrOf_row1 0x5 (by decide) b 0
theorem Encodes.oraAbs (a : Addr) : Encodes.Statement (.oraAbs a) :=
  encodes_word a _ (instrOf_row0 0xD (by decide) _ _)
theorem Encodes.oraAbx (a : Addr) : Encodes.Statement (.oraAbx a) :=
  encodes_word a _ (instrOf_row1 0xD (by decide) _ _)
theorem Encodes.oraAby (a : Addr) : Encodes.Statement (.oraAby a) :=
  encodes_word a _ (instrOf_row1 0x9 (by decide) _ _)
theorem Encodes.oraIzx (b : Byte) : Encodes.Statement (.oraIzx b) :=
  instrOf_row0 0x1 (by decide) b 0
theorem Encodes.oraIzy (b : Byte) : Encodes.Statement (.oraIzy b) :=
  instrOf_row1 0x1 (by decide) b 0
theorem Encodes.eorImm (b : Byte) : Encodes.Statement (.eorImm b) :=
  instrOf_row4 0x9 (by decide) b 0
theorem Encodes.eorZp (b : Byte) : Encodes.Statement (.eorZp b) :=
  instrOf_row4 0x5 (by decide) b 0
theorem Encodes.eorZpx (b : Byte) : Encodes.Statement (.eorZpx b) :=
  instrOf_row5 0x5 (by decide) b 0
theorem Encodes.eorAbs (a : Addr) : Encodes.Statement (.eorAbs a) :=
  encodes_word a _ (instrOf_row4 0xD (by decide) _ _)
theorem Encodes.eorAbx (a : Addr) : Encodes.Statement (.eorAbx a) :=
  encodes_word a _ (instrOf_row5 0xD (by decide) _ _)
theorem Encodes.eorAby (a : Addr) : Encodes.Statement (.eorAby a) :=
  encodes_word a _ (instrOf_row5 0x9 (by decide) _ _)
theorem Encodes.eorIzx (b : Byte) : Encodes.Statement (.eorIzx b) :=
  instrOf_row4 0x1 (by decide) b 0
theorem Encodes.eorIzy (b : Byte) : Encodes.Statement (.eorIzy b) :=
  instrOf_row5 0x1 (by decide) b 0
theorem Encodes.bitZp (b : Byte) : Encodes.Statement (.bitZp b) :=
  instrOf_row2 0x4 (by decide) b 0
theorem Encodes.bitAbs (a : Addr) : Encodes.Statement (.bitAbs a) :=
  encodes_word a _ (instrOf_row2 0xC (by decide) _ _)
theorem Encodes.aslAcc : Encodes.Statement (.aslAcc) :=
  instrOf_row0 0xA (by decide) 0 0
theorem Encodes.aslZp (b : Byte) : Encodes.Statement (.aslZp b) :=
  instrOf_row0 0x6 (by decide) b 0
theorem Encodes.aslZpx (b : Byte) : Encodes.Statement (.aslZpx b) :=
  instrOf_row1 0x6 (by decide) b 0
theorem Encodes.aslAbs (a : Addr) : Encodes.Statement (.aslAbs a) :=
  encodes_word a _ (instrOf_row0 0xE (by decide) _ _)
theorem Encodes.aslAbx (a : Addr) : Encodes.Statement (.aslAbx a) :=
  encodes_word a _ (instrOf_row1 0xE (by decide) _ _)
theorem Encodes.lsrAcc : Encodes.Statement (.lsrAcc) :=
  instrOf_row4 0xA (by decide) 0 0
theorem Encodes.lsrZp (b : Byte) : Encodes.Statement (.lsrZp b) :=
  instrOf_row4 0x6 (by decide) b 0
theorem Encodes.lsrZpx (b : Byte) : Encodes.Statement (.lsrZpx b) :=
  instrOf_row5 0x6 (by decide) b 0
theorem Encodes.lsrAbs (a : Addr) : Encodes.Statement (.lsrAbs a) :=
  encodes_word a _ (instrOf_row4 0xE (by decide) _ _)
theorem Encodes.lsrAbx (a : Addr) : Encodes.Statement (.lsrAbx a) :=
  encodes_word a _ (instrOf_row5 0xE (by decide) _ _)
theorem Encodes.rolAcc : Encodes.Statement (.rolAcc) :=
  instrOf_row2 0xA (by decide) 0 0
theorem Encodes.rolZp (b : Byte) : Encodes.Statement (.rolZp b) :=
  instrOf_row2 0x6 (by decide) b 0
theorem Encodes.rolZpx (b : Byte) : Encodes.Statement (.rolZpx b) :=
  instrOf_row3 0x6 (by decide) b 0
theorem Encodes.rolAbs (a : Addr) : Encodes.Statement (.rolAbs a) :=
  encodes_word a _ (instrOf_row2 0xE (by decide) _ _)
theorem Encodes.rolAbx (a : Addr) : Encodes.Statement (.rolAbx a) :=
  encodes_word a _ (instrOf_row3 0xE (by decide) _ _)
theorem Encodes.rorAcc : Encodes.Statement (.rorAcc) :=
  instrOf_row6 0xA (by decide) 0 0
theorem Encodes.rorZp (b : Byte) : Encodes.Statement (.rorZp b) :=
  instrOf_row6 0x6 (by decide) b 0
theorem Encodes.rorZpx (b : Byte) : Encodes.Statement (.rorZpx b) :=
  instrOf_row7 0x6 (by decide) b 0
theorem Encodes.rorAbs (a : Addr) : Encodes.Statement (.rorAbs a) :=
  encodes_word a _ (instrOf_row6 0xE (by decide) _ _)
theorem Encodes.rorAbx (a : Addr) : Encodes.Statement (.rorAbx a) :=
  encodes_word a _ (instrOf_row7 0xE (by decide) _ _)
theorem Encodes.bcc (off : Byte) : Encodes.Statement (.bcc off) :=
  instrOf_row9 0x0 (by decide) off 0
theorem Encodes.bcs (off : Byte) : Encodes.Statement (.bcs off) :=
  instrOf_rowB 0x0 (by decide) off 0
theorem Encodes.beq (off : Byte) : Encodes.Statement (.beq off) :=
  instrOf_rowF 0x0 (by decide) off 0
theorem Encodes.bmi (off : Byte) : Encodes.Statement (.bmi off) :=
  instrOf_row3 0x0 (by decide) off 0
theorem Encodes.bne (off : Byte) : Encodes.Statement (.bne off) :=
  instrOf_rowD 0x0 (by decide) off 0
theorem Encodes.bpl (off : Byte) : Encodes.Statement (.bpl off) :=
  instrOf_row1 0x0 (by decide) off 0
theorem Encodes.bvc (off : Byte) : Encodes.Statement (.bvc off) :=
  instrOf_row5 0x0 (by decide) off 0
theorem Encodes.bvs (off : Byte) : Encodes.Statement (.bvs off) :=
  instrOf_row7 0x0 (by decide) off 0
theorem Encodes.jmpAbs (a : Addr) : Encodes.Statement (.jmpAbs a) :=
  encodes_word a _ (instrOf_row4 0xC (by decide) _ _)
theorem Encodes.jmpInd (p : Addr) : Encodes.Statement (.jmpInd p) :=
  encodes_word p _ (instrOf_row6 0xC (by decide) _ _)
theorem Encodes.jsr (a : Addr) : Encodes.Statement (.jsr a) :=
  encodes_word a _ (instrOf_row2 0x0 (by decide) _ _)
theorem Encodes.rts : Encodes.Statement (.rts) :=
  instrOf_row6 0x0 (by decide) 0 0
theorem Encodes.pha : Encodes.Statement (.pha) :=
  instrOf_row4 0x8 (by decide) 0 0
theorem Encodes.php : Encodes.Statement (.php) :=
  instrOf_row0 0x8 (by decide) 0 0
theorem Encodes.pla : Encodes.Statement (.pla) :=
  instrOf_row6 0x8 (by decide) 0 0
theorem Encodes.plp : Encodes.Statement (.plp) :=
  instrOf_row2 0x8 (by decide) 0 0
theorem Encodes.clc : Encodes.Statement (.clc) :=
  instrOf_row1 0x8 (by decide) 0 0
theorem Encodes.sec : Encodes.Statement (.sec) :=
  instrOf_row3 0x8 (by decide) 0 0
theorem Encodes.cli : Encodes.Statement (.cli) :=
  instrOf_row5 0x8 (by decide) 0 0
theorem Encodes.sei : Encodes.Statement (.sei) :=
  instrOf_row7 0x8 (by decide) 0 0
theorem Encodes.cld : Encodes.Statement (.cld) :=
  instrOf_rowD 0x8 (by decide) 0 0
theorem Encodes.sed : Encodes.Statement (.sed) :=
  instrOf_rowF 0x8 (by decide) 0 0
theorem Encodes.clv : Encodes.Statement (.clv) :=
  instrOf_rowB 0x8 (by decide) 0 0
theorem Encodes.nop : Encodes.Statement (.nop) :=
  instrOf_rowE 0xA (by decide) 0 0
theorem Encodes.brk : Encodes.Statement (.brk) :=
  instrOf_row0 0x0 (by decide) 0 0
theorem Encodes.rti : Encodes.Statement (.rti) :=
  instrOf_row4 0x0 (by decide) 0 0

end Sys2Proof.Laws
end

