-- ==== Sys2Proof/Laws/Decode.lean ====
section
/-!
SUPPORT. The decoder's small laws: the row of an instruction's own opcode, and that every instruction is well-formed.
-/

namespace Sys2Proof.Laws

/-- The row of the opcode table that an instruction's opcode byte selects (30_encoding.md R54, R55), its cost given by the
two-layer mechanism (R60). -/
theorem record_of_instr (i : Instr) :
    decodeRecord i.opcode = some ⟨i.opcode, i.mnemonic, i.operand.mode, i.timing⟩ := by
  cases i <;>
    simp only [Instr.timing, Instr.opcode, Instr.mnemonic, Instr.operand, Operand.mode, MemOperand.mode] <;>
    decide +kernel

/-- An instruction has as many operand bytes as its size calls for (R51, R52). -/
theorem operand_bytes_length (i : Instr) : i.operand.bytes.length + 1 = i.size := by
  cases i <;> rfl

/-- The widths of an instruction's operands are in its types, so it is always well-formed. -/
theorem instr_wf (i : Instr) : i.wf = true := by
  have hd := record_of_instr i
  have hl := operand_bytes_length i
  rw [Instr.size] at hl
  simp only [Instr.wf, Operation.wf, Operation.opcodeDefined, Operation.firstByteFits, Operation.secondByteFits,
    Operation.size?, Instr.toOperation, hd]
  match hb : i.operand.bytes with
  | [] => simp
  | [b] => rw [hb] at hl; simp at hl; simp [← hl]
  | b :: c :: r =>
    rw [hb] at hl
    simp only [List.length_cons] at hl
    have h2 : 2 ≤ i.operand.mode.size := by omega
    have h3 : 3 ≤ i.operand.mode.size := by omega
    simp [h2, h3]

end Sys2Proof.Laws
end

