-- ==== Sys2Proof/Laws/Operands.lean ====
section
/-!
SUPPORT. One equation per shared Ready transition (40_engine_and_addressing.md R71): the next state each answers. None of
them can fault or refuse.
-/

namespace Sys2Proof.Laws

open Sys2Proof.Machine

theorem finish_next (t : Timing) (crossed taken bcross : Bool) (s : State) :
    finish t crossed taken bcross s = .next { s with stall := t.cycles - 1 + t.extra crossed taken bcross } := rfl

theorem readImm_next (t : Timing) (b : Byte) (h : Byte → State → State) (s : State) :
    readImm t b h s = .next { h b (s.advance 2) with stall := t.cycles - 1 + t.extra false false false } := rfl

theorem readMem_next (t : Timing) (m : MemOperand) (h : Byte → State → State) (s : State) :
    readMem t m h s =
      .next { h ((s.advance m.mode.size).read (m.resolve (s.advance m.mode.size)).addr) (s.advance m.mode.size) with
        stall := t.cycles - 1 + t.extra (m.resolve (s.advance m.mode.size)).crossed false false } := rfl

theorem storeMem_next (t : Timing) (m : MemOperand) (r : State → Byte) (s : State) :
    storeMem t m r s =
      .next { (s.advance m.mode.size).write (m.resolve (s.advance m.mode.size)).addr (r (s.advance m.mode.size)) with
        stall := t.cycles - 1 + t.extra (m.resolve (s.advance m.mode.size)).crossed false false } := rfl

theorem modifyAcc_next (t : Timing) (h : Byte → State → Byte × State) (s : State) :
    modifyAcc t h s =
      .next { (h s.ac (s.advance 1)).2 with
        ac := (h s.ac (s.advance 1)).1, stall := t.cycles - 1 + t.extra false false false } := rfl

theorem modifyMem_next (t : Timing) (m : MemOperand) (h : Byte → State → Byte × State) (s : State) :
    modifyMem t m h s =
      .next {
        (h ((s.advance m.mode.size).read (m.resolve (s.advance m.mode.size)).addr) (s.advance m.mode.size)).2.write
          (m.resolve (s.advance m.mode.size)).addr
          (h ((s.advance m.mode.size).read (m.resolve (s.advance m.mode.size)).addr) (s.advance m.mode.size)).1 with
        stall := t.cycles - 1 + t.extra (m.resolve (s.advance m.mode.size)).crossed false false } := rfl

theorem transfer_next (t : Timing) (m : MemOperand) (h : Addr → State → State) (s : State) :
    transfer t m h s =
      .next { h (m.resolve (s.advance m.mode.size)).addr (s.advance m.mode.size) with
        stall := t.cycles - 1 + t.extra (m.resolve (s.advance m.mode.size)).crossed false false } := rfl

theorem implied_next (t : Timing) (h : State → State) (s : State) :
    implied t h s = .next { h (s.advance 1) with stall := t.cycles - 1 + t.extra false false false } := rfl

/-- The shared branch handler (44_branch_jump.md R149), both ways. -/
theorem branch_next (t : Timing) (cond : Bool) (off : Byte) (s : State) :
    branch t cond off s =
      .next (if cond then
        { s with
          pc := withOffset (s.pc + 2) off
          stall := t.cycles - 1 + t.extra false true (hi (withOffset (s.pc + 2) off) != hi (s.pc + 2)) }
      else { s with pc := s.pc + 2, stall := t.cycles - 1 + t.extra false false false }) := by
  cases cond <;> rfl

end Sys2Proof.Laws
end

