-- ==== Sys2Proof/Laws/Step.lean ====
section
/-!
SUPPORT. What a step can do, said once (40_engine_and_addressing.md R70, R71, R75).
-/

namespace Sys2Proof.Laws

open Sys2Proof.Machine

theorem step_stalled {s : State} (h : 0 < s.stall) : step s = .next { s with stall := s.stall - 1 } := by
  simp [step, tick, h]

theorem step_ready {s : State} (h : s.stall = 0) : step s = readyTransition s := by
  simp [step, tick, h]

/-- If a step answers a next state, it was a Stalled tick, or a Ready tick that executed one fetched instruction. -/
theorem step_next_cases {s t : State} (h : step s = .next t) :
    (0 < s.stall ∧ t = { s with stall := s.stall - 1 }) ∨
      (s.stall = 0 ∧ ∃ i, (fetch s).bind Operation.instr = some i ∧ exec i s = .next t) := by
  by_cases hs : 0 < s.stall
  · rw [step_stalled hs] at h
    exact .inl ⟨hs, by injection h with h; exact h.symm⟩
  · have hs0 : s.stall = 0 := by omega
    rw [step_ready hs0, readyTransition] at h
    split at h
    · next i hi => exact .inr ⟨hs0, i, hi, h⟩
    · cases h

/-- A run of `k + 1` ticks is one tick and then `k`. -/
theorem run_succ {s t : State} (h : step s = .next t) (k : Nat) : core.run (k + 1) s = core.run k t := by
  have h' : core.step s = .next t := h
  simp [Host.Core.run, h']

/-- The bytes of `i` stand at `PC` once they are what the addresses from `PC` on read. -/
theorem standsAtPC_of_reads {i : Instr} {s : State}
    (h : (List.range (encode i).length).map (fun k => s.read (s.pc + BitVec.ofNat 16 k)) = encode i) : StandsAtPC i s := by
  intro k w hk
  obtain ⟨hlt, rfl⟩ := List.getElem?_eq_some_iff.mp hk
  have := congrArg (fun l => l[k]?) h
  simpa [hlt] using this

end Sys2Proof.Laws
end

