-- ==== Sys2Proof/Tests/Slice0.lean ====
section
/-!
SUPPORT. Tests: ill-formed terms refused, every encoding decoded from its word, one step per instruction against the
worked vectors of spec/95_test_vectors.md, and for every obligation with hypotheses a concrete input that meets them.
-/

namespace Sys2Proof.Tests

-- one kernel check at a time: each would otherwise hold a thread and its stack
set_option Elab.async false

open Sys2Proof.Machine

/-! Helpers. -/

/-- Reset with `PC` where the vectors place their instruction. -/
def at600 : State := { State.reset with pc := 0x0600 }

/-- `s` with an instruction's bytes at its `PC` and some more bytes of memory. -/
def placed (s : State) (bytes : List Byte) (more : List (Addr × Byte)) : State :=
  more.foldl (fun t cell => t.write cell.1 cell.2) (s.storeBytes s.pc bytes)

/-- What one step leaves of a state, if it answers a next state. -/
def after (s : State) {α : Type} (f : State → α) : Option α :=
  match step s with
  | .next t => some (f t)
  | .fault _ => none
  | .refused _ => none

/-- The fault of one step. -/
def faultOf (s : State) : Option Fault :=
  match step s with
  | .next _ => none
  | .fault f => some f
  | .refused _ => none

/-- What the decoder reads from exactly these bytes. -/
def reads (bytes : List Byte) : Option Instr :=
  match decode bytes with
  | .ok (i, []) => some i
  | .ok (_, _ :: _) => none
  | .error _ => none

theorem next_of_after {s t : State} (h : after s id = some t) : step s = .next t := by
  unfold after at h
  split at h
  · next u hu => rw [hu]; simp only [id, Option.some.injEq] at h; rw [h]
  · cases h
  · cases h

theorem fault_of_faultOf {s : State} {f : Fault} (h : faultOf s = some f) : step s = .fault f := by
  unfold faultOf at h
  split at h
  · cases h
  · next u hu => rw [hu]; simp only [Option.some.injEq] at h; rw [h]
  · cases h

/-! Well-formedness: each check refuses a term, alone. -/

theorem test_wf_refuses_undefined_opcode :
    (Operation.mk 0x02 0x00 0x00).opcodeDefined = false ∧ (Operation.mk 0x02 0x00 0x00).firstByteFits = true ∧
      (Operation.mk 0x02 0x00 0x00).secondByteFits = true ∧ (Operation.mk 0x02 0x00 0x00).wf = false := by
  decide +kernel

theorem test_wf_refuses_first_byte_of_a_one_byte_instruction :
    (Operation.mk 0xEA 0x01 0x00).opcodeDefined = true ∧ (Operation.mk 0xEA 0x01 0x00).firstByteFits = false ∧
      (Operation.mk 0xEA 0x01 0x00).secondByteFits = true ∧ (Operation.mk 0xEA 0x01 0x00).wf = false := by
  decide +kernel

theorem test_wf_refuses_second_byte_of_a_two_byte_instruction :
    (Operation.mk 0xA9 0x01 0x02).opcodeDefined = true ∧ (Operation.mk 0xA9 0x01 0x02).firstByteFits = true ∧
      (Operation.mk 0xA9 0x01 0x02).secondByteFits = false ∧ (Operation.mk 0xA9 0x01 0x02).wf = false := by
  decide +kernel

theorem test_wf_accepts : (Instr.ldaAbs 0x1234).wf = true ∧ (Instr.brk).wf = true := by
  decide +kernel

/-! Decoding: every constructor from its opcode byte written bit by bit as spec/opcode_table.json prints it, with operand byte
0x84 or operand bytes 0x34 0x12 (low byte first). -/

theorem test_decode_load_store_transfer : ∀ r ∈ ([
    ([0b10100001, 0x84], .ldaIzx 0x84), ([0b10100101, 0x84], .ldaZp 0x84), ([0b10101001, 0x84], .ldaImm 0x84),
    ([0b10101101, 0x34, 0x12], .ldaAbs 0x1234), ([0b10110001, 0x84], .ldaIzy 0x84),
    ([0b10110101, 0x84], .ldaZpx 0x84), ([0b10111001, 0x34, 0x12], .ldaAby 0x1234),
    ([0b10111101, 0x34, 0x12], .ldaAbx 0x1234), ([0b10100010, 0x84], .ldxImm 0x84), ([0b10100110, 0x84], .ldxZp 0x84),
    ([0b10101110, 0x34, 0x12], .ldxAbs 0x1234), ([0b10110110, 0x84], .ldxZpy 0x84),
    ([0b10111110, 0x34, 0x12], .ldxAby 0x1234), ([0b10100000, 0x84], .ldyImm 0x84), ([0b10100100, 0x84], .ldyZp 0x84),
    ([0b10101100, 0x34, 0x12], .ldyAbs 0x1234), ([0b10110100, 0x84], .ldyZpx 0x84),
    ([0b10111100, 0x34, 0x12], .ldyAbx 0x1234), ([0b10000001, 0x84], .staIzx 0x84), ([0b10000101, 0x84], .staZp 0x84),
    ([0b10001101, 0x34, 0x12], .staAbs 0x1234), ([0b10010001, 0x84], .staIzy 0x84),
    ([0b10010101, 0x84], .staZpx 0x84), ([0b10011001, 0x34, 0x12], .staAby 0x1234),
    ([0b10011101, 0x34, 0x12], .staAbx 0x1234), ([0b10000110, 0x84], .stxZp 0x84),
    ([0b10001110, 0x34, 0x12], .stxAbs 0x1234), ([0b10010110, 0x84], .stxZpy 0x84), ([0b10000100, 0x84], .styZp 0x84),
    ([0b10001100, 0x34, 0x12], .styAbs 0x1234), ([0b10010100, 0x84], .styZpx 0x84), ([0b10101010], .tax),
    ([0b10101000], .tay), ([0b10111010], .tsx), ([0b10001010], .txa), ([0b10011010], .txs), ([0b10011000], .tya)] : List (List Byte × Instr)), reads r.1 = some r.2 := by
  decide +kernel

theorem test_decode_arithmetic_first : ∀ r ∈ ([
    ([0b01100001, 0x84], .adcIzx 0x84), ([0b01100101, 0x84], .adcZp 0x84), ([0b01101001, 0x84], .adcImm 0x84),
    ([0b01101101, 0x34, 0x12], .adcAbs 0x1234), ([0b01110001, 0x84], .adcIzy 0x84),
    ([0b01110101, 0x84], .adcZpx 0x84), ([0b01111001, 0x34, 0x12], .adcAby 0x1234),
    ([0b01111101, 0x34, 0x12], .adcAbx 0x1234), ([0b11100001, 0x84], .sbcIzx 0x84), ([0b11100101, 0x84], .sbcZp 0x84),
    ([0b11101001, 0x84], .sbcImm 0x84), ([0b11101101, 0x34, 0x12], .sbcAbs 0x1234),
    ([0b11110001, 0x84], .sbcIzy 0x84), ([0b11110101, 0x84], .sbcZpx 0x84),
    ([0b11111001, 0x34, 0x12], .sbcAby 0x1234), ([0b11111101, 0x34, 0x12], .sbcAbx 0x1234)] : List (List Byte × Instr)), reads r.1 = some r.2 := by
  decide +kernel

theorem test_decode_arithmetic_second : ∀ r ∈ ([
    ([0b11000001, 0x84], .cmpIzx 0x84), ([0b11000101, 0x84], .cmpZp 0x84), ([0b11001001, 0x84], .cmpImm 0x84),
    ([0b11001101, 0x34, 0x12], .cmpAbs 0x1234), ([0b11010001, 0x84], .cmpIzy 0x84),
    ([0b11010101, 0x84], .cmpZpx 0x84), ([0b11011001, 0x34, 0x12], .cmpAby 0x1234),
    ([0b11011101, 0x34, 0x12], .cmpAbx 0x1234), ([0b11100000, 0x84], .cpxImm 0x84), ([0b11100100, 0x84], .cpxZp 0x84),
    ([0b11101100, 0x34, 0x12], .cpxAbs 0x1234), ([0b11000000, 0x84], .cpyImm 0x84), ([0b11000100, 0x84], .cpyZp 0x84),
    ([0b11001100, 0x34, 0x12], .cpyAbs 0x1234), ([0b11100110, 0x84], .incZp 0x84),
    ([0b11101110, 0x34, 0x12], .incAbs 0x1234), ([0b11110110, 0x84], .incZpx 0x84),
    ([0b11111110, 0x34, 0x12], .incAbx 0x1234), ([0b11101000], .inx), ([0b11001000], .iny),
    ([0b11000110, 0x84], .decZp 0x84), ([0b11001110, 0x34, 0x12], .decAbs 0x1234), ([0b11010110, 0x84], .decZpx 0x84),
    ([0b11011110, 0x34, 0x12], .decAbx 0x1234), ([0b11001010], .dex), ([0b10001000], .dey)] : List (List Byte × Instr)), reads r.1 = some r.2 := by
  decide +kernel

theorem test_decode_logic_shift_first : ∀ r ∈ ([
    ([0b00100001, 0x84], .andIzx 0x84), ([0b00100101, 0x84], .andZp 0x84), ([0b00101001, 0x84], .andImm 0x84),
    ([0b00101101, 0x34, 0x12], .andAbs 0x1234), ([0b00110001, 0x84], .andIzy 0x84),
    ([0b00110101, 0x84], .andZpx 0x84), ([0b00111001, 0x34, 0x12], .andAby 0x1234),
    ([0b00111101, 0x34, 0x12], .andAbx 0x1234), ([0b00000001, 0x84], .oraIzx 0x84), ([0b00000101, 0x84], .oraZp 0x84),
    ([0b00001001, 0x84], .oraImm 0x84), ([0b00001101, 0x34, 0x12], .oraAbs 0x1234),
    ([0b00010001, 0x84], .oraIzy 0x84), ([0b00010101, 0x84], .oraZpx 0x84),
    ([0b00011001, 0x34, 0x12], .oraAby 0x1234), ([0b00011101, 0x34, 0x12], .oraAbx 0x1234),
    ([0b01000001, 0x84], .eorIzx 0x84), ([0b01000101, 0x84], .eorZp 0x84), ([0b01001001, 0x84], .eorImm 0x84),
    ([0b01001101, 0x34, 0x12], .eorAbs 0x1234), ([0b01010001, 0x84], .eorIzy 0x84),
    ([0b01010101, 0x84], .eorZpx 0x84), ([0b01011001, 0x34, 0x12], .eorAby 0x1234),
    ([0b01011101, 0x34, 0x12], .eorAbx 0x1234)] : List (List Byte × Instr)), reads r.1 = some r.2 := by
  decide +kernel

theorem test_decode_logic_shift_second : ∀ r ∈ ([
    ([0b00100100, 0x84], .bitZp 0x84), ([0b00101100, 0x34, 0x12], .bitAbs 0x1234), ([0b00000110, 0x84], .aslZp 0x84),
    ([0b00001010], .aslAcc), ([0b00001110, 0x34, 0x12], .aslAbs 0x1234), ([0b00010110, 0x84], .aslZpx 0x84),
    ([0b00011110, 0x34, 0x12], .aslAbx 0x1234), ([0b01000110, 0x84], .lsrZp 0x84), ([0b01001010], .lsrAcc),
    ([0b01001110, 0x34, 0x12], .lsrAbs 0x1234), ([0b01010110, 0x84], .lsrZpx 0x84),
    ([0b01011110, 0x34, 0x12], .lsrAbx 0x1234), ([0b00100110, 0x84], .rolZp 0x84), ([0b00101010], .rolAcc),
    ([0b00101110, 0x34, 0x12], .rolAbs 0x1234), ([0b00110110, 0x84], .rolZpx 0x84),
    ([0b00111110, 0x34, 0x12], .rolAbx 0x1234), ([0b01100110, 0x84], .rorZp 0x84), ([0b01101010], .rorAcc),
    ([0b01101110, 0x34, 0x12], .rorAbs 0x1234), ([0b01110110, 0x84], .rorZpx 0x84),
    ([0b01111110, 0x34, 0x12], .rorAbx 0x1234)] : List (List Byte × Instr)), reads r.1 = some r.2 := by
  decide +kernel

theorem test_decode_branch_jump : ∀ r ∈ ([
    ([0b10010000, 0x84], .bcc 0x84), ([0b10110000, 0x84], .bcs 0x84), ([0b11110000, 0x84], .beq 0x84),
    ([0b00110000, 0x84], .bmi 0x84), ([0b11010000, 0x84], .bne 0x84), ([0b00010000, 0x84], .bpl 0x84),
    ([0b01010000, 0x84], .bvc 0x84), ([0b01110000, 0x84], .bvs 0x84), ([0b01001100, 0x34, 0x12], .jmpAbs 0x1234),
    ([0b01101100, 0x34, 0x12], .jmpInd 0x1234), ([0b00100000, 0x34, 0x12], .jsr 0x1234), ([0b01100000], .rts)] : List (List Byte × Instr)), reads r.1 = some r.2 := by
  decide +kernel

theorem test_decode_stack_flag_system : ∀ r ∈ ([
    ([0b01001000], .pha), ([0b00001000], .php), ([0b01101000], .pla), ([0b00101000], .plp), ([0b00011000], .clc),
    ([0b00111000], .sec), ([0b01011000], .cli), ([0b01111000], .sei), ([0b11011000], .cld), ([0b11111000], .sed),
    ([0b10111000], .clv), ([0b11101010], .nop), ([0b00000000], .brk), ([0b01000000], .rti)] : List (List Byte × Instr)), reads r.1 = some r.2 := by
  decide +kernel

/-! One step per vector of 95_test_vectors.md; the name ends in the vector's number. -/

theorem test_lda_V4 :
    after (placed ({ at600 with x := 0x1F }) [0xB5, 0xF0] [(0x000F, 0x33), (0x010F, 0x44)])
        (fun t => (t.ac, t.stall)) =
      some (0x33, 3) := by
  decide +kernel

theorem test_lda_V7 :
    after (placed ({ at600 with x := 0x01 }) [0xBD, 0xFF, 0xFF] [(0x0000, 0x99)])
        (fun t => (t.ac, t.n, t.stall)) =
      some (0x99, true, 4) := by
  decide +kernel

theorem test_lda_V9 :
    after (placed ({ at600 with
          x := 0x00 })
          [0xA1, 0xFF] [(0x00FF, 0x34), (0x0000, 0x12), (0x0100, 0x77), (0x1234, 0xAB)])
        (fun t => (t.ac, t.n, t.stall)) =
      some (0xAB, true, 5) := by
  decide +kernel

theorem test_lda_V11 :
    after (placed ({ at600 with
          y := 0x10 })
          [0xB1, 0xFF] [(0x00FF, 0xF0), (0x0000, 0x02), (0x0100, 0x77), (0x0300, 0x66)])
        (fun t => (t.ac, t.stall)) =
      some (0x66, 5) := by
  decide +kernel

theorem test_ldx_V13 :
    after (placed ({ at600 with y := 0x1F }) [0xB6, 0xF0] [(0x000F, 0x80)])
        (fun t => (t.x, t.n, t.stall)) =
      some (0x80, true, 3) := by
  decide +kernel

theorem test_ldy_V15 :
    after (placed ({ at600 with x := 0x10, y := 0x09 }) [0xBC, 0xF0, 0x02] [(0x0300, 0x00)])
        (fun t => (t.y, t.z, t.stall)) =
      some (0x00, true, 4) := by
  decide +kernel

theorem test_sta_V16 :
    after (placed ({ at600 with x := 0x10, ac := 0x42, z := true, n := true }) [0x9D, 0xF0, 0x02] [])
        (fun t => (t.read 0x0300, t.stall)) =
      some (0x42, 4) := by
  decide +kernel

theorem test_sta_V18 :
    after (placed ({ at600 with y := 0x10, ac := 0x42 }) [0x91, 0x20] [(0x0020, 0xF0), (0x0021, 0x02)])
        (fun t => (t.read 0x0300, t.stall)) =
      some (0x42, 5) := by
  decide +kernel

theorem test_stx_V20 :
    after (placed ({ at600 with y := 0x20, x := 0x77 }) [0x96, 0xF0] [])
        (fun t => (t.read 0x0010, t.stall)) =
      some (0x77, 3) := by
  decide +kernel

theorem test_sty_V21 :
    after (placed ({ at600 with x := 0x01, y := 0x88 }) [0x94, 0x10] [])
        (fun t => (t.read 0x0011, t.stall)) =
      some (0x88, 3) := by
  decide +kernel

theorem test_tax_V23 :
    after (placed ({ at600 with ac := 0x80, x := 0x01 }) [0xAA] [])
        (fun t => (t.x, t.n, t.stall)) =
      some (0x80, true, 1) := by
  decide +kernel

theorem test_tay_V24 :
    after (placed ({ at600 with ac := 0x00, y := 0x01 }) [0xA8] [])
        (fun t => (t.y, t.z, t.stall)) =
      some (0x00, true, 1) := by
  decide +kernel

theorem test_tsx_V25 :
    after (placed ({ at600 with sp := 0xFD }) [0xBA] [])
        (fun t => (t.x, t.n, t.stall)) =
      some (0xFD, true, 1) := by
  decide +kernel

theorem test_txa_V27 :
    after (placed ({ at600 with x := 0x7F, ac := 0x80, n := true }) [0x8A] [])
        (fun t => (t.ac, t.n, t.stall)) =
      some (0x7F, false, 1) := by
  decide +kernel

theorem test_txs_V28 :
    after (placed ({ at600 with x := 0x00, sp := 0x55, n := true, z := false }) [0x9A] [])
        (fun t => (t.sp, t.n, t.stall)) =
      some (0x00, true, 1) := by
  decide +kernel

theorem test_tya_V30 :
    after (placed ({ at600 with y := 0xFF }) [0x98] [])
        (fun t => (t.ac, t.n, t.stall)) =
      some (0xFF, true, 1) := by
  decide +kernel

theorem test_adc_V34 :
    after (placed ({ at600 with ac := 0x80, c := false }) [0x69, 0x80] [])
        (fun t => (t.ac, t.v, t.z, t.c, t.stall)) =
      some (0x00, true, true, true, 1) := by
  decide +kernel

theorem test_adc_V36 :
    after (placed ({ at600 with ac := 0x09, c := false, d := true }) [0x69, 0x01] [])
        (fun t => (t.ac, t.v, t.c, t.stall)) =
      some (0x0A, false, false, 1) := by
  decide +kernel

theorem test_sbc_V40 :
    after (placed ({ at600 with ac := 0x00, c := false }) [0xE9, 0x01] [])
        (fun t => (t.ac, t.n, t.v, t.c, t.stall)) =
      some (0xFE, true, false, false, 1) := by
  decide +kernel

theorem test_sbc_V41 :
    after (placed ({ at600 with ac := 0x80, c := true }) [0xE9, 0x01] [])
        (fun t => (t.ac, t.v, t.c, t.stall)) =
      some (0x7F, true, true, 1) := by
  decide +kernel

theorem test_cmp_V48 :
    after (placed ({ at600 with ac := 0x20, v := true }) [0xC9, 0x20] [])
        (fun t => (t.z, t.c, t.stall)) =
      some (true, true, 1) := by
  decide +kernel

theorem test_cmp_V50 :
    after (placed ({ at600 with ac := 0x00 }) [0xC9, 0xFF] [])
        (fun t => (t.c, t.stall)) =
      some (false, 1) := by
  decide +kernel

theorem test_cpx_V52 :
    after (placed ({ at600 with x := 0x05 }) [0xE4, 0x10] [(0x0010, 0x05)])
        (fun t => (t.z, t.c, t.stall)) =
      some (true, true, 2) := by
  decide +kernel

theorem test_cpy_V53 :
    after (placed ({ at600 with y := 0x7F }) [0xC0, 0x80] [])
        (fun t => (t.n, t.stall)) =
      some (true, 1) := by
  decide +kernel

theorem test_inc_V54 :
    after (placed ({ at600 with c := true }) [0xE6, 0x10] [(0x0010, 0xFF)])
        (fun t => (t.z, t.read 0x0010, t.stall)) =
      some (true, 0x00, 4) := by
  decide +kernel

theorem test_inc_V56 :
    after (placed ({ at600 with x := 0x10 }) [0xFE, 0xF0, 0x02] [(0x0300, 0x01)])
        (fun t => (t.read 0x0300, t.stall)) =
      some (0x02, 6) := by
  decide +kernel

theorem test_dec_V57 :
    after (placed (at600) [0xC6, 0x10] [(0x0010, 0x00)])
        (fun t => (t.n, t.read 0x0010, t.stall)) =
      some (true, 0xFF, 4) := by
  decide +kernel

theorem test_inx_V59 :
    after (placed ({ at600 with x := 0xFF }) [0xE8] [])
        (fun t => (t.x, t.z, t.stall)) =
      some (0x00, true, 1) := by
  decide +kernel

theorem test_iny_V60 :
    after (placed ({ at600 with y := 0x7F }) [0xC8] [])
        (fun t => (t.y, t.n, t.stall)) =
      some (0x80, true, 1) := by
  decide +kernel

theorem test_dex_V61 :
    after (placed ({ at600 with x := 0x00 }) [0xCA] [])
        (fun t => (t.x, t.n, t.stall)) =
      some (0xFF, true, 1) := by
  decide +kernel

theorem test_dey_V62 :
    after (placed ({ at600 with y := 0x01 }) [0x88] [])
        (fun t => (t.y, t.z, t.stall)) =
      some (0x00, true, 1) := by
  decide +kernel

theorem test_and_V63 :
    after (placed ({ at600 with ac := 0xF0, c := true, v := true }) [0x29, 0x0F] [])
        (fun t => (t.ac, t.z, t.stall)) =
      some (0x00, true, 1) := by
  decide +kernel

theorem test_ora_V66 :
    after (placed ({ at600 with ac := 0x01 }) [0x05, 0x10] [(0x0010, 0x80)])
        (fun t => (t.ac, t.n, t.stall)) =
      some (0x81, true, 2) := by
  decide +kernel

theorem test_eor_V68 :
    after (placed ({ at600 with ac := 0x0F }) [0x49, 0xFF] [])
        (fun t => (t.ac, t.n, t.stall)) =
      some (0xF0, true, 1) := by
  decide +kernel

theorem test_bit_V71 :
    after (placed ({ at600 with ac := 0x00, n := true, v := true }) [0x2C, 0x00, 0x02] [(0x0200, 0x3F)])
        (fun t => ([t.n, t.v, t.z, t.c], t.stall)) =
      some ([false, false, true, false], 3) := by
  decide +kernel

theorem test_bit_V72 :
    after (placed ({ at600 with ac := 0x01, n := true, v := true, c := true }) [0x24, 0x10] [(0x0010, 0x01)])
        (fun t => (t.n, t.v, t.c, t.stall)) =
      some (false, false, true, 2) := by
  decide +kernel

theorem test_asl_V74 :
    after (placed ({ at600 with ac := 0x40, c := true }) [0x0A] [])
        (fun t => (t.ac, t.n, t.c, t.stall)) =
      some (0x80, true, false, 1) := by
  decide +kernel

theorem test_asl_V76 :
    after (placed ({ at600 with x := 0x10 }) [0x1E, 0xF0, 0x02] [(0x0300, 0x01)])
        (fun t => (t.read 0x0300, t.c, t.stall)) =
      some (0x02, false, 6) := by
  decide +kernel

theorem test_lsr_V77 :
    after (placed ({ at600 with ac := 0x01, n := true }) [0x4A] [])
        (fun t => (t.ac, t.n, t.z, t.c, t.stall)) =
      some (0x00, false, true, true, 1) := by
  decide +kernel

theorem test_lsr_V79 :
    after (placed ({ at600 with x := 0xFF }) [0x56, 0x10] [(0x000F, 0xFF)])
        (fun t => (t.c, t.read 0x000F, t.stall)) =
      some (true, 0x7F, 5) := by
  decide +kernel

theorem test_rol_V82 :
    after (placed ({ at600 with ac := 0x40, c := true }) [0x2A] [])
        (fun t => (t.ac, t.n, t.c, t.stall)) =
      some (0x81, true, false, 1) := by
  decide +kernel

theorem test_rol_V83 :
    after (placed ({ at600 with c := false }) [0x2E, 0x00, 0x02] [(0x0200, 0xFF)])
        (fun t => (t.n, t.c, t.read 0x0200, t.stall)) =
      some (true, true, 0xFE, 5) := by
  decide +kernel

theorem test_ror_V86 :
    after (placed ({ at600 with ac := 0x01, c := true }) [0x6A] [])
        (fun t => (t.ac, t.n, t.c, t.stall)) =
      some (0x80, true, true, 1) := by
  decide +kernel

theorem test_ror_V87 :
    after (placed ({ at600 with c := true }) [0x66, 0x10] [(0x0010, 0xFE)])
        (fun t => (t.n, t.c, t.read 0x0010, t.stall)) =
      some (true, false, 0xFF, 4) := by
  decide +kernel

theorem test_bcs_V90 :
    after (placed ({ at600 with c := true }) [0xB0, 0x04] [])
        (fun t => (t.pc, t.stall)) =
      some (0x0606, 2) := by
  decide +kernel

theorem test_beq_V91 :
    after (placed ({ at600 with pc := 0x06FD, z := true }) [0xF0, 0x01] [])
        (fun t => (t.pc, t.stall)) =
      some (0x0700, 3) := by
  decide +kernel

theorem test_bne_V93 :
    after (placed ({ at600 with pc := 0x0605, z := false }) [0xD0, 0xFB] [])
        (fun t => (t.pc, t.stall)) =
      some (0x0602, 2) := by
  decide +kernel

theorem test_bne_V94 :
    after (placed ({ at600 with pc := 0x0605, z := true }) [0xD0, 0xFB] [])
        (fun t => (t.pc, t.stall)) =
      some (0x0607, 1) := by
  decide +kernel

theorem test_bmi_V95 :
    after (placed ({ at600 with n := true }) [0x30, 0x7F] [])
        (fun t => (t.pc, t.stall)) =
      some (0x0681, 2) := by
  decide +kernel

theorem test_bpl_V96 :
    after (placed ({ at600 with n := false }) [0x10, 0x80] [])
        (fun t => (t.pc, t.stall)) =
      some (0x0582, 3) := by
  decide +kernel

theorem test_bvc_V97 :
    after (placed ({ at600 with v := false }) [0x50, 0x02] [])
        (fun t => (t.pc, t.stall)) =
      some (0x0604, 2) := by
  decide +kernel

theorem test_bvs_V98 :
    after (placed ({ at600 with v := false }) [0x70, 0x02] [])
        (fun t => (t.pc, t.stall)) =
      some (0x0602, 1) := by
  decide +kernel

theorem test_bcc_V101 :
    after (placed ({ at600 with pc := 0xFFFE, c := false }) [0x90, 0x10] [])
        (fun t => (t.pc, t.stall)) =
      some (0x0010, 2) := by
  decide +kernel

theorem test_bcc_V102 :
    after (placed ({ at600 with pc := 0xFFFE, c := false }) [0x90, 0xF0] [])
        (fun t => (t.pc, t.stall)) =
      some (0xFFF0, 3) := by
  decide +kernel

theorem test_jmp_V106 :
    after (placed (at600) [0x6C, 0xFF, 0x02] [(0x02FF, 0x34), (0x0300, 0x12), (0x0200, 0x56)])
        (fun t => (t.pc, t.stall)) =
      some (0x1234, 4) := by
  decide +kernel

theorem test_jmp_V107 :
    after (placed (at600) [0x6C, 0xFF, 0xFF] [(0xFFFF, 0x78), (0x0000, 0x56)])
        (fun t => (t.pc, t.stall)) =
      some (0x5678, 4) := by
  decide +kernel

theorem test_jsr_V110 :
    after (placed ({ at600 with sp := 0x00 }) [0x20, 0x20, 0x06] [])
        (fun t => (t.pc, t.sp, [t.read 0x0100, t.read 0x01FF], t.stall)) =
      some (0x0620, 0xFE, [0x06, 0x02], 5) := by
  decide +kernel

theorem test_jsr_V111 :
    after (placed ({ at600 with pc := 0xFFFD, sp := 0xFF }) [0x20, 0x34, 0x12] [])
        (fun t => (t.pc, t.sp, [t.read 0x01FF, t.read 0x01FE], t.stall)) =
      some (0x1234, 0xFD, [0xFF, 0xFF], 5) := by
  decide +kernel

theorem test_rts_V113 :
    after (placed ({ at600 with sp := 0xFE }) [0x60] [(0x01FF, 0xFF), (0x0100, 0xFF)])
        (fun t => (t.pc, t.sp, t.stall)) =
      some (0x0000, 0x00, 5) := by
  decide +kernel

theorem test_pha_V115 :
    after (placed ({ at600 with ac := 0x42, sp := 0x00 }) [0x48] [])
        (fun t => (t.sp, t.read 0x0100, t.stall)) =
      some (0xFF, 0x42, 2) := by
  decide +kernel

theorem test_php_V117 :
    after (placed ({ at600 with sp := 0xFF }) [0x08] [])
        (fun t => (t.sp, t.read 0x01FF, t.stall)) =
      some (0xFE, 0x30, 2) := by
  decide +kernel

theorem test_pla_V120 :
    after (placed ({ at600 with sp := 0xFF }) [0x68] [(0x0100, 0x80)])
        (fun t => (t.ac, t.sp, t.n, t.stall)) =
      some (0x80, 0x00, true, 3) := by
  decide +kernel

theorem test_plp_V122 :
    after (placed ({ at600 with sp := 0xFE }) [0x28] [(0x01FF, 0xFF)])
        (fun t => (t.sp, [t.n, t.v, t.d, t.i, t.z, t.c, t.b], t.stall)) =
      some (0xFF, [true, true, true, true, true, true, false], 3) := by
  decide +kernel

theorem test_plp_V123 :
    after (placed ({ at600 with
          sp := 0xFE, n := true, v := true, b := true, d := true, i := true, z := true, c := true })
          [0x28] [(0x01FF, 0x00)])
        (fun t => (t.sp, [t.n, t.v, t.d, t.i, t.z, t.c, t.b], t.stall)) =
      some (0xFF, [false, false, false, false, false, false, true], 3) := by
  decide +kernel

theorem test_clc_V124 :
    after (placed ({ at600 with c := true }) [0x18] [])
        (fun t => (t.c, t.stall)) =
      some (false, 1) := by
  decide +kernel

theorem test_sec_V125 :
    after (placed (at600) [0x38] [])
        (fun t => (t.c, t.stall)) =
      some (true, 1) := by
  decide +kernel

theorem test_cli_V126 :
    after (placed ({ at600 with i := true }) [0x58] [])
        (fun t => (t.i, t.stall)) =
      some (false, 1) := by
  decide +kernel

theorem test_sei_V127 :
    after (placed (at600) [0x78] [])
        (fun t => (t.i, t.stall)) =
      some (true, 1) := by
  decide +kernel

theorem test_cld_V128 :
    after (placed ({ at600 with d := true }) [0xD8] [])
        (fun t => (t.d, t.stall)) =
      some (false, 1) := by
  decide +kernel

theorem test_sed_V129 :
    after (placed (at600) [0xF8] [])
        (fun t => (t.d, t.stall)) =
      some (true, 1) := by
  decide +kernel

theorem test_clv_V130 :
    after (placed ({ at600 with v := true }) [0xB8] [])
        (fun t => (t.v, t.stall)) =
      some (false, 1) := by
  decide +kernel

theorem test_nop_V131 :
    after (placed ({ at600 with n := true, z := true }) [0xEA] [])
        (fun t => (t.n, t.z, t.stall)) =
      some (true, true, 1) := by
  decide +kernel

theorem test_brk_V132 :
    after (placed ({ at600 with sp := 0xFF, z := true, c := true }) [0x00] [(0xFFFE, 0x00), (0xFFFF, 0x07)])
        (fun t => (t.pc, t.sp, [t.b, t.i], [t.read 0x01FF, t.read 0x01FE, t.read 0x01FD], t.stall)) =
      some (0x0700, 0xFC, [true, true], [0x06, 0x02, 0x33], 6) := by
  decide +kernel

theorem test_brk_V133 :
    after (placed ({ at600 with pc := 0x12FF, sp := 0x01, d := true, i := true, n := true }) [0x00] [])
        (fun t => (t.pc, t.sp, t.b, [t.read 0x0101, t.read 0x0100, t.read 0x01FF], t.stall)) =
      some (0x0000, 0xFE, true, [0x13, 0x01, 0xBC], 6) := by
  decide +kernel

theorem test_rti_V134 :
    after (placed ({ at600 with
          pc := 0x0700, sp := 0xFC, b := true, i := true })
          [0x40] [(0x01FD, 0x33), (0x01FE, 0x02), (0x01FF, 0x06)])
        (fun t => (t.pc, t.sp, [t.i, t.z, t.c, t.b], t.stall)) =
      some (0x0602, 0xFF, [false, true, true, true], 5) := by
  decide +kernel

theorem test_rti_V135 :
    after (placed ({ at600 with sp := 0xFF }) [0x40] [(0x0100, 0xFF), (0x0101, 0xCD), (0x0102, 0xAB)])
        (fun t => (t.pc, t.sp, [t.n, t.v, t.d, t.i, t.z, t.c], t.stall)) =
      some (0xABCD, 0x02, [true, true, true, true, true, true], 5) := by
  decide +kernel

theorem test_undefined_opcode_V136 :
    faultOf (placed { at600 with ac := 0x11 } [0x02, 0xEA, 0xEA] []) = some (.unknownOpcode 0x0600 0x02) := by
  decide +kernel

/-! The host's two entry points. -/

theorem test_withFetchWord_runs_a_three_byte_word :
    after (State.reset.withFetchWord 24 0x1234AD) (fun t => (t.pc, t.stall)) = some (0x0003, 3) ∧
      decodeTableWord 24 0x1234AD = some (.ldaAbs 0x1234) := by
  decide +kernel

theorem test_withFetchWord_at_the_top_of_memory :
    after ({ State.reset with pc := 0xFFFF, stall := 4 }.withFetchWord 16 0x80A9) (fun t => (t.pc, t.ac, t.stall)) =
      some (0x0001, 0x80, 1) := by
  decide +kernel

theorem test_decodeTableWord_clears_the_bits_above :
    decodeTableWord 8 0x1234AD = some (.ldaAbs 0x0000) ∧ decodeTableWord 8 0xFF02 = none := by
  decide +kernel

/-! For every obligation with hypotheses, inputs that meet them, at the boundary values of each clause. -/

theorem witness_EncodeOfDecodeIsTheBytes :
    decode [0xFF, 0xFF, 0xFF] = .error (.unknownOpcode 0xFF) ∧ decode [0xFE, 0xFF, 0xFF, 0x00] = .ok (.incAbx 0xFFFF, [0x00]) ∧
      decode [0x00] = .ok (.brk, []) :=
  ⟨rfl, rfl, rfl⟩

theorem witness_UndefinedOpcodesAreExactlyTheListed :
    (placed at600 [0xFF] []).stall = 0 ∧ (placed at600 [0xFF] []).read (placed at600 [0xFF] []).pc = 0xFF ∧
      (placed at600 [0x02] []).stall = 0 ∧ (placed at600 [0x02] []).read (placed at600 [0x02] []).pc = 0x02 := by
  decide +kernel

theorem witness_PenaltyBitsAreTheListedOpcodes :
    decodeRecord 0xBD = some ⟨0xBD, .lda, .abx, { cycles := 4, pageSensitive := true }⟩ ∧
      decodeRecord 0xF0 = some ⟨0xF0, .beq, .rel, { cycles := 2, branchSensitive := true }⟩ ∧
      decodeRecord 0x9D = some ⟨0x9D, .sta, .abx, { cycles := 5 }⟩ := by
  decide +kernel

theorem witness_WithOffset_boundaries :
    withOffset 0xFF90 0x7F = 0x000F ∧ withOffset 0x0010 0x80 = 0xFF90 ∧ withOffset 0x0000 0xFF = 0xFFFF := by
  decide +kernel

/-- The memory modes at the page and address-space boundaries. -/
theorem witness_AddressingModesResolve :
    ((MemOperand.abx 0x02F0).resolve { at600 with x := 0x0F }) = ⟨0x02FF, false⟩ ∧
      ((MemOperand.abx 0x02F0).resolve { at600 with x := 0x10 }) = ⟨0x0300, true⟩ ∧
      ((MemOperand.abx 0xFFFF).resolve { at600 with x := 0x01 }) = ⟨0x0000, true⟩ ∧
      ((MemOperand.zpx 0xFF).resolve { at600 with x := 0x01 }) = ⟨0x0000, false⟩ := by
  decide +kernel

theorem witness_CanonicalMemoriesAreEqualData :
    Memory.wf ((at600.write 0x0000 0x01).write 0xFFFF 0x02).mem ∧ Memory.wf ((at600.write 0xFFFF 0x02).write 0x0000 0x01).mem ∧
      ((at600.write 0x0000 0x01).write 0xFFFF 0x02).mem = ((at600.write 0xFFFF 0x02).write 0x0000 0x01).mem := by
  decide +kernel

/-- The same bytes read at every address. -/
theorem witness_CanonicalMemoriesAreEqualData_reads (a : Addr) :
    ((at600.write 0x0000 0x01).write 0xFFFF 0x02).read a = ((at600.write 0xFFFF 0x02).write 0x0000 0x01).read a := by
  rw [show (at600.write 0x0000 0x01).write 0xFFFF 0x02 = (at600.write 0xFFFF 0x02).write 0x0000 0x01 by decide +kernel]

/-- A Ready and a Stalled state of the invariant, each with its next state. -/
theorem witness_StepKeepsTheInvariant :
    (Inv (placed at600 [0xE8] []) ∧
        step (placed at600 [0xE8] []) = .next { placed at600 [0xE8] [] with pc := 0x0601, x := 0x01, stall := 1 }) ∧
      (Inv { at600 with stall := 6 } ∧ step { at600 with stall := 6 } = .next { at600 with stall := 5 }) :=
  ⟨⟨by unfold Inv; decide +kernel, next_of_after (by decide +kernel)⟩,
    ⟨by unfold Inv; decide +kernel, next_of_after (by decide +kernel)⟩⟩

theorem witness_StalledTickOnlyCountsDown : 0 < { at600 with stall := 1 }.stall ∧ at600.stall = 0 := by
  decide +kernel

/-- Also across the end of the address space. -/
theorem witness_StepRunsTheDecodedInstruction :
    (placed { at600 with pc := 0xFFFE } [0xAD, 0x34, 0x12] []).stall = 0 ∧
      StandsAtPC (.ldaAbs 0x1234) (placed { at600 with pc := 0xFFFE } [0xAD, 0x34, 0x12] []) :=
  ⟨by decide +kernel, Laws.standsAtPC_of_reads (by decide +kernel)⟩

theorem witness_UnknownOpcodeIsTheOnlyFault :
    decodeRecord ((placed at600 [0x80] []).read (placed at600 [0x80] []).pc) = none ∧
      step (placed at600 [0x80] []) = .fault (.unknownOpcode 0x0600 0x80) :=
  ⟨by decide +kernel, fault_of_faultOf (by decide +kernel)⟩

theorem witness_FetchBuildsAWellFormedOperation :
    fetch (placed at600 [0xA9, 0x80, 0x55] []) = some ⟨0xA9, 0x80, 0x00⟩ ∧ fetch (placed at600 [0xFB] []) = none ∧
      fetch (placed at600 [0x4C, 0x34, 0x12] []) = some ⟨0x4C, 0x34, 0x12⟩ := by
  decide +kernel

/-- A branch taken to another page: the bytes stand at `PC`, and both penalties apply. -/
theorem witness_InstructionOccupiesExactlyItsTicks :
    (placed { at600 with pc := 0x06FD, z := true } [0xF0, 0x01] []).stall = 0 ∧
      StandsAtPC (.beq 0x01) (placed { at600 with pc := 0x06FD, z := true } [0xF0, 0x01] []) ∧
      (Instr.beq 0x01).ticks (placed { at600 with pc := 0x06FD, z := true } [0xF0, 0x01] []) = 4 :=
  ⟨by decide +kernel, Laws.standsAtPC_of_reads (by decide +kernel), by decide +kernel⟩

theorem witness_ExecuteIsTheTransitionWithoutPacing :
    (Operation.mk 0xE8 0x00 0x00).instr = some .inx ∧ (Operation.mk 0xFF 0x00 0x00).instr = none ∧
      (Operation.mk 0xE8 0x12 0x34).instr = some .inx := by
  decide +kernel

theorem witness_JumpToItselfMovesOnlyStall :
    Complete 0x0600 (placed at600 [0x4C, 0x00, 0x06] []) ∧
      StandsAtPC (.jmpAbs 0x0600) (placed at600 [0x4C, 0x00, 0x06] []) :=
  ⟨by unfold Complete; decide +kernel, Laws.standsAtPC_of_reads (by decide +kernel)⟩

/-- Every clause over a location is met by a form whose address wraps or stands at the top of the address space. -/
theorem witness_BusAccessesAreOneToSixBytes_location :
    let s : State := { at600 with x := 0x01, y := 0x01 }
    ((Instr.ldaAbx 0xFFFF).mnemonic = .lda ∧ (Instr.ldaAbx 0xFFFF).location s = some ⟨0x0000, true⟩) ∧
      ((Instr.staAby 0xFFFF).mnemonic = .sta ∧ (Instr.staAby 0xFFFF).location s = some ⟨0x0000, true⟩) ∧
      ((Instr.stxZpy 0xFF).mnemonic = .stx ∧ (Instr.stxZpy 0xFF).location s = some ⟨0x0000, false⟩) ∧
      ((Instr.styZpx 0xFF).mnemonic = .sty ∧ (Instr.styZpx 0xFF).location s = some ⟨0x0000, false⟩) ∧
      ((Instr.incAbx 0xFFFE).mnemonic = .inc ∧ (Instr.incAbx 0xFFFE).location s = some ⟨0xFFFF, false⟩) ∧
      ((Instr.jmpInd 0xFFFF).mnemonic = .jmp ∧ (Instr.jmpInd 0xFFFF).location s = some ⟨0x0000, false⟩) ∧
      ((Instr.bne 0x80).mnemonic = .bne ∧ (Instr.bne 0x80).location s = some ⟨0x0582, false⟩) ∧
      ((Instr.jsr 0xFFFF).mnemonic = .jsr ∧ (Instr.jsr 0xFFFF).location s = some ⟨0xFFFF, false⟩) := by
  decide +kernel

theorem witness_BusAccessesAreOneToSixBytes :
    Instr.rorAcc.operand = .acc ∧ (Instr.ldyImm 0xFF).operand = .imm 0xFF ∧ Instr.nop.mnemonic = .nop ∧
      Instr.pha.mnemonic = .pha ∧ Instr.php.mnemonic = .php ∧ Instr.pla.mnemonic = .pla ∧ Instr.plp.mnemonic = .plp ∧
      Instr.rts.mnemonic = .rts ∧ Instr.rti.mnemonic = .rti ∧ Instr.brk.mnemonic = .brk ∧
      Memory.wf (at600.write 0xFFFF 0x01).mem := by
  decide +kernel

/-- Two memories that agree on the one byte the instruction reads and differ elsewhere. -/
theorem witness_AnInstructionSeesOnlyTheBytesItReads :
    (Instr.ldaZp 0x10).bodyAccesses (placed at600 [] [(0x0010, 0x7F), (0x0011, 0x01)]) = [.rd 0x0010 0x7F] ∧
      (placed at600 [] [(0x0010, 0x7F), (0x0012, 0x02)]).read 0x0010 = 0x7F ∧
      placed at600 [] [(0x0010, 0x7F), (0x0012, 0x02)] =
        { placed at600 [] [(0x0010, 0x7F), (0x0011, 0x01)] with
          mem := (placed at600 [] [(0x0010, 0x7F), (0x0012, 0x02)]).mem } := by
  decide +kernel

theorem witness_LoadsTakeTheOperandByte :
    (Instr.ldaIzy 0xFF).mnemonic = .lda ∧ (Instr.ldxZpy 0xFF).mnemonic = .ldx ∧ (Instr.ldyAbx 0xFFFF).mnemonic = .ldy := by
  decide +kernel

theorem witness_StoresWriteOneByte :
    (Instr.staIzx 0xFF).mnemonic = .sta ∧ (Instr.stxZpy 0xFF).mnemonic = .stx ∧ (Instr.styAbs 0xFFFF).mnemonic = .sty := by
  decide +kernel

theorem witness_AdcAddsWithCarry : (Instr.adcImm 0xFF).mnemonic = .adc ∧ (Instr.adcIzy 0x00).mnemonic = .adc := by
  decide +kernel

theorem witness_SbcSubtractsWithBorrow : (Instr.sbcImm 0x00).mnemonic = .sbc ∧ (Instr.sbcAbx 0xFFFF).mnemonic = .sbc := by
  decide +kernel

theorem witness_ComparesSetFlagsOnly :
    (Instr.cmpAby 0xFFFF).mnemonic = .cmp ∧ (Instr.cpxImm 0xFF).mnemonic = .cpx ∧ (Instr.cpyAbs 0x0000).mnemonic = .cpy := by
  decide +kernel

theorem witness_IncAndDecRewriteOneByte :
    (Instr.incAbx 0xFFFF).mnemonic = .inc ∧ (Instr.decZpx 0xFF).mnemonic = .dec ∧ (Instr.incAbx 0xFFFF).operand ≠ .acc := by
  decide +kernel

theorem witness_LogicCombinesTheAccumulator :
    (Instr.andImm 0x00).mnemonic = .and ∧ (Instr.oraIzx 0xFF).mnemonic = .ora ∧ (Instr.eorAbx 0xFFFF).mnemonic = .eor := by
  decide +kernel

theorem witness_BitTestsTheOperand : (Instr.bitZp 0xFF).mnemonic = .bit ∧ (Instr.bitAbs 0xFFFF).mnemonic = .bit := by
  decide +kernel

/-- Each of the four in its accumulator form and in a memory form. -/
theorem witness_ShiftsMoveOneBitThroughCarry :
    (Instr.aslAcc.mnemonic = .asl ∧ Instr.aslAcc.operand = .acc) ∧
      ((Instr.aslZp 0xFF).mnemonic = .asl ∧ (Instr.aslZp 0xFF).operand ≠ .acc) ∧
      (Instr.lsrAcc.mnemonic = .lsr ∧ Instr.lsrAcc.operand = .acc) ∧
      ((Instr.lsrAbx 0xFFFF).mnemonic = .lsr ∧ (Instr.lsrAbx 0xFFFF).operand ≠ .acc) ∧
      (Instr.rolAcc.mnemonic = .rol ∧ Instr.rolAcc.operand = .acc) ∧
      ((Instr.rolZpx 0x80).mnemonic = .rol ∧ (Instr.rolZpx 0x80).operand ≠ .acc) ∧
      (Instr.rorAcc.mnemonic = .ror ∧ Instr.rorAcc.operand = .acc) ∧
      ((Instr.rorAbs 0x0000).mnemonic = .ror ∧ (Instr.rorAbs 0x0000).operand ≠ .acc) := by
  decide +kernel

/-- With the stack wrapping inside page 1: JSR from `SP` = 0x00, then RTS from the state it leaves. -/
theorem witness_RtsReturnsAfterJsr :
    exec (.jsr 0x1234) { at600 with sp := 0x00 } =
        .next (({ at600 with sp := 0xFE, pc := 0x1234, stall := 5 }.write 0x0100 0x06).write 0x01FF 0x02) ∧
      (∀ k < 2, (({ at600 with sp := 0xFE, pc := 0x0000 } : State).write 0x0100 0x06 |>.write 0x01FF 0x02).read
          (stackAddr (0x00 - BitVec.ofNat 8 k)) =
        ((({ at600 with sp := 0xFE, pc := 0x1234, stall := 5 } : State).write 0x0100 0x06).write 0x01FF 0x02).read
          (stackAddr (0x00 - BitVec.ofNat 8 k))) :=
  ⟨rfl, by decide +kernel⟩

/-- The only instruction that advances `PC` by 1, loads `stall` 1 and does no more, in every state. -/
theorem witness_NopDoesNothing (s : State) : exec .nop s = .next { s with pc := s.pc + 1, stall := 1 } := rfl

/-- With the stack wrapping inside page 1: BRK from `SP` = 0x01, then RTI from the state it leaves. -/
theorem witness_RtiReturnsFromBrk :
    exec .brk { at600 with sp := 0x01, c := true } =
        .next ((({ at600 with sp := 0xFE, pc := 0x0000, b := true, i := true, c := true, stall := 6 }.write 0x0101 0x06).write
          0x0100 0x02).write 0x01FF 0x31) ∧
      (∀ k < 3, ((({ at600 with sp := 0xFE } : State).write 0x0101 0x06 |>.write 0x0100 0x02).write 0x01FF 0x31).read
          (stackAddr (0x01 - BitVec.ofNat 8 k)) =
        (((({ at600 with sp := 0xFE, pc := 0x0000, b := true, i := true, c := true, stall := 6 } : State).write 0x0101 0x06).write
          0x0100 0x02).write 0x01FF 0x31).read (stackAddr (0x01 - BitVec.ofNat 8 k))) :=
  ⟨rfl, by decide +kernel⟩

/-- One instruction outside every list of writers, and one inside some lists and outside the others. -/
theorem witness_OnlyTheListedInstructionsWriteEachFlag :
    Instr.nop.mnemonic ∉ [.adc, .sbc, .bit, .clv, .plp, .rti] ∧ Instr.nop.mnemonic ≠ .brk ∧
      Instr.brk.mnemonic ∉ [.sed, .cld, .plp, .rti] ∧ (Instr.bitZp 0x10).mnemonic ∉ [.sei, .brk, .cli, .plp, .rti] ∧
      (Instr.staZp 0x10).mnemonic ∉ [.lda, .ldx, .ldy, .tax, .tay, .tsx, .txa, .tya, .pla, .adc, .sbc, .cmp, .cpx, .cpy, .inc,
        .inx, .iny, .dec, .dex, .dey, .and, .ora, .eor, .asl, .lsr, .rol, .ror, .bit, .plp, .rti] ∧
      (Instr.incZp 0x10).mnemonic ∉ [.adc, .sbc, .cmp, .cpx, .cpy, .asl, .rol, .lsr, .ror, .sec, .clc, .plp, .rti] := by
  decide +kernel

theorem witness_OnlyControlTransfersLeaveTheSequence :
    (Instr.ldaZp 0x10).mnemonic ∉ [.bcc, .bcs, .beq, .bmi, .bne, .bpl, .bvc, .bvs, .jmp, .jsr, .rts, .rti, .brk] ∧
      (Instr.bcc 0x80).mnemonic ∉ [.txs, .pha, .php, .pla, .plp, .jsr, .rts, .brk, .rti] ∧
      ((Instr.aslZp 0x10).mnemonic ∉ [.lda, .pla, .txa, .tya, .adc, .sbc, .and, .ora, .eor] ∧
        (Instr.aslZp 0x10).operand ≠ .acc) ∧
      (Instr.iny).mnemonic ∉ [.ldx, .tax, .tsx, .inx, .dex] ∧ (Instr.inx).mnemonic ∉ [.ldy, .tay, .iny, .dey] := by
  decide +kernel

theorem witness_OnlyWritingInstructionsChangeMemory :
    (Instr.ldaZp 0x10).mnemonic ∉ [.sta, .stx, .sty, .asl, .lsr, .rol, .ror, .inc, .dec, .pha, .php, .jsr, .brk] ∧
      Instr.rolAcc.operand = .acc ∧
      ((Instr.staAbx 0xFFFF).mnemonic ∉ [.jsr] ∧
        (Instr.staAbx 0xFFFF).location { at600 with x := 0x01 } = some ⟨0x0000, true⟩ ∧ (0xFFFF : Addr) ≠ 0x0000) ∧
      (Instr.brk.mnemonic ∈ [.pha, .php, .jsr, .brk] ∧ (0x00FF : Addr).toNat < 0x100 ∧ 0x1FF < (0x0200 : Addr).toNat) := by
  decide +kernel

/-- A run of a state in two ticks, and a run that faults. -/
theorem witness_BreakFlagIsUnobservable :
    RunsTo 2 (placed at600 [0xE8] []) { placed at600 [0xE8] [] with pc := 0x0601, x := 0x01, stall := 0 } ∧
      FaultsIn 1 (placed at600 [0x02] []) (.unknownOpcode 0x0600 0x02) :=
  ⟨(Laws.run_succ (next_of_after (by decide +kernel :
        after (placed at600 [0xE8] []) id = some { placed at600 [0xE8] [] with pc := 0x0601, x := 0x01, stall := 1 })) 1).trans
      (Laws.run_succ (next_of_after (by decide +kernel)) 0),
    rfl⟩

theorem witness_DecimalAndInterruptFlagsAreInert :
    (Instr.adcImm 0x01).mnemonic ∉ [.php, .brk] ∧ (Instr.adcImm 0x01).mnemonic ∉ [.sed, .cld, .plp, .rti] ∧
      (Instr.adcImm 0x01).mnemonic ∉ [.sei, .cli, .plp, .rti] ∧ Instr.plp.mnemonic ∈ [.sed, .cld, .plp, .rti] ∧
      Instr.sei.mnemonic ∈ [.sei, .cli, .plp, .rti] := by
  decide +kernel

end Sys2Proof.Tests
end

section
/-!
PROOFS. `B` cannot be observed (10_state.md R19). No resolver and no handler looks at `B`, the pushed status byte
does not hold it (R24), and BRK alone writes it; so two runs that start equal but for `B` stay equal but for `B`.
-/

namespace Sys2Proof.Proofs

open Sys2Proof.Machine Sys2Proof.Laws

/-! ### What does not look at `B` -/

/-- The state with `f` in `B`. -/
def withBreak (s : State) (f : Bool) : State := { s with b := f }

@[simp] theorem withBreak_b (s : State) (f : Bool) : (withBreak s f).b = f := rfl

@[simp] theorem withBreak_self (s : State) : withBreak s s.b = s := rfl

theorem advance_withBreak (s : State) (f : Bool) (k : Nat) :
    (withBreak s f).advance k = withBreak (s.advance k) f := rfl

theorem read_withBreak (s : State) (f : Bool) (a : Addr) : (withBreak s f).read a = s.read a := rfl

theorem write_withBreak (s : State) (f : Bool) (a : Addr) (w : Byte) :
    (withBreak s f).write a w = withBreak (s.write a w) f := rfl

/-- No addressing mode looks at `B` (R83 to R92). -/
theorem resolve_withBreak (s : State) (f : Bool) (m : MemOperand) : m.resolve (withBreak s f) = m.resolve s := by
  cases m <;> rfl

theorem fetch_withBreak (s : State) (f : Bool) : fetch (withBreak s f) = fetch s := rfl

/-- A handler does the same whatever `B` holds, and leaves `B` as it found it. -/
def PassesBreak (h : State → State) : Prop :=
  ∀ (s : State) (f : Bool), h (withBreak s f) = withBreak (h s) f

/-- The same for a read-modify-write handler, whose new value does not depend on `B` either. -/
def ModifyPassesBreak (h : State → Byte × State) : Prop :=
  ∀ (s : State) (f : Bool), h (withBreak s f) = ((h s).1, withBreak (h s).2 f)

/-- A transition answers a next state, the same whatever `B` holds, and leaves `B` as it found it. -/
def CarriesBreak (r : State → Result) : Prop :=
  ∀ (s : State) (f : Bool), ∃ t, r s = .next t ∧ r (withBreak s f) = .next (withBreak t f)

/-! ### One rule per class of R95 -/

theorem readImm_carriesBreak {t : Timing} {b : Byte} {h : Byte → State → State} (hh : PassesBreak (h b)) :
    CarriesBreak (readImm t b h) := by
  intro s f
  refine ⟨_, readImm_next .., ?_⟩
  rw [readImm_next, advance_withBreak, hh]
  rfl

theorem readMem_carriesBreak {t : Timing} {m : MemOperand} {h : Byte → State → State}
    (hh : ∀ w, PassesBreak (h w)) : CarriesBreak (readMem t m h) := by
  intro s f
  refine ⟨_, readMem_next .., ?_⟩
  rw [readMem_next, advance_withBreak, resolve_withBreak, read_withBreak, hh]
  rfl

theorem storeMem_carriesBreak {t : Timing} {m : MemOperand} {r : State → Byte}
    (hr : ∀ (s : State) (f : Bool), r (withBreak s f) = r s) : CarriesBreak (storeMem t m r) := by
  intro s f
  refine ⟨_, storeMem_next .., ?_⟩
  rw [storeMem_next, advance_withBreak, resolve_withBreak, hr, write_withBreak]
  rfl

theorem modifyAcc_carriesBreak {t : Timing} {h : Byte → State → Byte × State} (hh : ∀ w, ModifyPassesBreak (h w)) :
    CarriesBreak (modifyAcc t h) := by
  intro s f
  refine ⟨_, modifyAcc_next .., ?_⟩
  rw [modifyAcc_next, advance_withBreak, hh]
  rfl

theorem modifyMem_carriesBreak {t : Timing} {m : MemOperand} {h : Byte → State → Byte × State}
    (hh : ∀ w, ModifyPassesBreak (h w)) : CarriesBreak (modifyMem t m h) := by
  intro s f
  refine ⟨_, modifyMem_next .., ?_⟩
  rw [modifyMem_next, advance_withBreak, resolve_withBreak, read_withBreak, hh, write_withBreak]
  rfl

theorem transfer_carriesBreak {t : Timing} {m : MemOperand} {h : Addr → State → State}
    (hh : ∀ a, PassesBreak (h a)) : CarriesBreak (transfer t m h) := by
  intro s f
  refine ⟨_, transfer_next .., ?_⟩
  rw [transfer_next, advance_withBreak, resolve_withBreak, hh]
  rfl

theorem implied_carriesBreak {t : Timing} {h : State → State} (hh : PassesBreak h) : CarriesBreak (implied t h) := by
  intro s f
  refine ⟨_, implied_next .., ?_⟩
  rw [implied_next, advance_withBreak, hh]
  rfl

/-- A branch whose condition does not look at `B`. -/
theorem branch_carriesBreak {t : Timing} {cond : State → Bool} {off : Byte}
    (hc : ∀ (s : State) (f : Bool), cond (withBreak s f) = cond s) :
    CarriesBreak (fun s => branch t (cond s) off s) := by
  intro s f
  refine ⟨_, branch_next .., ?_⟩
  simp only [hc, branch_next]
  cases cond s <;> rfl

/-! ### One instruction -/

/-- PHP pushes bit 4 as 1, whatever `B` holds (R19, R24). -/
theorem doPhp_passesBreak : PassesBreak doPhp := by
  intro s f
  rw [doPhp, withBreak, pushedStatus_ignores_b]
  rfl

theorem mnemonic_eq_brk_iff (i : Instr) : i.mnemonic = .brk ↔ i = .brk := by
  cases i <;> simp [Instr.mnemonic]

/-- Every instruction but BRK, by its class (40_engine_and_addressing.md R95). -/
theorem exec_carriesBreak (i : Instr) (hi : i ≠ .brk) : CarriesBreak (exec i) := by
  cases i
  case brk => exact absurd rfl hi
  case php => exact implied_carriesBreak doPhp_passesBreak
  case ldaImm | ldxImm | ldyImm | adcImm | sbcImm | cmpImm | cpxImm | cpyImm | andImm | oraImm | eorImm =>
    exact readImm_carriesBreak fun _ _ => rfl
  case staZp | staZpx | staAbs | staAbx | staAby | staIzx | staIzy | stxZp | stxZpy | stxAbs | styZp | styZpx | styAbs =>
    exact storeMem_carriesBreak fun _ _ => rfl
  case aslAcc | lsrAcc | rolAcc | rorAcc => exact modifyAcc_carriesBreak fun _ _ _ => rfl
  case incZp | incZpx | incAbs | incAbx | decZp | decZpx | decAbs | decAbx | aslZp | aslZpx | aslAbs | aslAbx |
      lsrZp | lsrZpx | lsrAbs | lsrAbx | rolZp | rolZpx | rolAbs | rolAbx | rorZp | rorZpx | rorAbs | rorAbx =>
    exact modifyMem_carriesBreak fun _ _ _ => rfl
  case jmpAbs | jmpInd | jsr => exact transfer_carriesBreak fun _ _ _ => rfl
  case bcc | bcs | beq | bmi | bne | bpl | bvc | bvs => exact branch_carriesBreak fun _ _ => rfl
  case tax | tay | tsx | txa | txs | tya | inx | iny | dex | dey | rts | pha | pla | plp | clc | sec | cli | sei |
      cld | sed | clv | nop | rti =>
    exact implied_carriesBreak fun _ _ => rfl
  -- class read with a memory operand
  all_goals exact readMem_carriesBreak fun _ _ _ => rfl

/-- BRK sets `B` before it pushes the status byte (45_stack_flag_system.md R182), so what `B` held before is lost. -/
theorem exec_brk_forgets_b (s : State) :
    ∃ t, exec .brk s = .next t ∧ t.b = true ∧ ∀ f, exec .brk (withBreak s f) = .next t :=
  ⟨_, rfl, rfl, fun _ => rfl⟩

/-- What each instruction leaves in `B`. -/
theorem exec_b (i : Instr) (s : State) :
    ∃ t, exec i s = .next t ∧ t.b = (if i.mnemonic = .brk then true else s.b) := by
  simp only [mnemonic_eq_brk_iff]
  split
  case isTrue hi =>
    obtain ⟨t, ht, hb, -⟩ := exec_brk_forgets_b s
    exact ⟨t, hi ▸ ht, hb⟩
  case isFalse hi =>
    obtain ⟨t, -, ht⟩ := exec_carriesBreak i hi s s.b
    rw [withBreak_self] at ht
    exact ⟨_, ht, withBreak_b t s.b⟩

/-! ### One step, and a run -/

/-- Two answers that are equal but for `B`: next states that differ in `B` only, or the same fault. -/
def SameButBreak (r r' : Result) : Prop :=
  (∃ (t : State) (g : Bool), r = .next t ∧ r' = .next (withBreak t g)) ∨ ∃ e, r = .fault e ∧ r' = .fault e

theorem exec_sameButBreak (i : Instr) (s : State) (f : Bool) : SameButBreak (exec i s) (exec i (withBreak s f)) := by
  by_cases hi : i = .brk
  · obtain ⟨t, ht, -, hf⟩ := exec_brk_forgets_b s
    subst hi
    exact .inl ⟨t, t.b, ht, hf f⟩
  · obtain ⟨t, ht, hf⟩ := exec_carriesBreak i hi s f
    exact .inl ⟨t, f, ht, hf⟩

theorem readyTransition_sameButBreak (s : State) (f : Bool) :
    SameButBreak (readyTransition s) (readyTransition (withBreak s f)) := by
  simp only [readyTransition, fetch_withBreak]
  cases (fetch s).bind Operation.instr with
  | some i => exact exec_sameButBreak i s f
  | none => exact .inr ⟨_, rfl, rfl⟩

theorem step_sameButBreak (s : State) (f : Bool) : SameButBreak (step s) (step (withBreak s f)) := by
  by_cases hs : s.stall = 0
  · rw [step_ready hs, step_ready (s := withBreak s f) hs]
    exact readyTransition_sameButBreak s f
  · have hs : 0 < s.stall := Nat.pos_of_ne_zero hs
    exact .inl ⟨_, f, step_stalled hs, step_stalled (s := withBreak s f) hs⟩

/-- A run whose first tick faults ends in that fault. -/
theorem run_succ_fault {s : State} {e : Fault} (h : step s = .fault e) (k : Nat) : core.run (k + 1) s = .fault e := by
  have h' : core.step s = .fault e := h
  simp [Host.Core.run, h']

/-- Runs from states that differ in `B` only stay equal but for `B`, however long they are. -/
theorem run_sameButBreak (k : Nat) (s : State) (f : Bool) :
    SameButBreak (core.run k s) (core.run k (withBreak s f)) := by
  induction k generalizing s f with
  | zero => exact .inl ⟨s, f, rfl, rfl⟩
  | succ k ih =>
    obtain ⟨t, g, ht, hg⟩ | ⟨e, he, he'⟩ := step_sameButBreak s f
    · rw [run_succ ht, run_succ hg]
      exact ih t g
    · exact .inr ⟨e, run_succ_fault he k, run_succ_fault he' k⟩

/-- Settles O56: BRK is the only instruction that does not carry `B` along, and a run answers the same but for `B`, by
induction on its length. -/
theorem breakFlagIsUnobservable : Obligations.BreakFlagIsUnobservable := by
  refine ⟨exec_b, fun k s f => ⟨fun t ht => ?_, fun e he => ?_⟩⟩
  · obtain ⟨u, g, hu, hg⟩ | ⟨e, he, -⟩ := run_sameButBreak k s f
    · cases hu.symm.trans ht
      exact ⟨g, hg⟩
    · cases he.symm.trans ht
  · obtain ⟨u, g, hu, -⟩ | ⟨e', he', hf⟩ := run_sameButBreak k s f
    · cases hu.symm.trans he
    · cases he'.symm.trans he
      exact hf

end Sys2Proof.Proofs
end

section
/-!
PROOFS. The address helper `withOffset` (20_memory.md R36), the memory a launch leaves (R33), and the Bus accesses of
each class (R48; 40_engine_and_addressing.md R95).
-/

namespace Sys2Proof.Proofs

open Sys2Proof.Machine Sys2Proof.Laws

/-! ### Signed offsets -/

theorem withOffset_toNat (base : Addr) (off : Byte) :
    ((withOffset base off).toNat : Int) = ((base.toNat : Int) + off.toInt) % 65536 := by
  rw [← ofInt_withOffset, BitVec.toNat_ofInt]
  omega

/-- Settles O10: both branches of R36 are the two cases of the byte as a signed number. -/
theorem withOffsetIsSignedAndWraps : Obligations.WithOffsetIsSignedAndWraps := by
  intro base off
  refine ⟨BitVec.eq_of_toNat_eq ?_, withOffset_toNat base off⟩
  have hsum := withOffset_toNat base off
  rw [BitVec.toInt_eq_toNat_cond] at hsum
  have := off.isLt
  have := base.isLt
  split
  · simp only [BitVec.toNat_add, BitVec.toNat_ofNat]
    omega
  · simp only [BitVec.toNat_sub, BitVec.toNat_ofNat]
    omega

/-! ### The launched memory -/

/-- A seeded memory holds at an address the byte seeded there last, or what it held before the seeding. -/
theorem readKey_seed (m : Memory) (image : List (Addr × Byte)) (a : Addr) :
    (Memory.seed m image).readKey a.toNat =
      ((image.reverse.find? (fun cell => cell.1 == a)).map Prod.snd).getD (m.readKey a.toNat) := by
  induction image using List.reverseRecOn with
  | nil => rfl
  | append_singleton image cell ih =>
    have hseed : Memory.seed m (image ++ [cell]) = (Memory.seed m image).writeKey cell.1.toNat cell.2 := by
      simp [Memory.seed]
    rw [hseed, readKey_writeKey, ih, List.reverse_concat, List.find?_cons]
    by_cases h : cell.1 = a
    · simp [h]
    · have hne : a.toNat ≠ cell.1.toNat := fun e => h (BitVec.eq_of_toNat_eq e.symm)
      rw [beq_false_of_ne h, if_neg hne]

/-- Settles O13: the launch copies its parameters, and its memory is the empty one seeded with the image. -/
theorem launchStateIsTheParameters : Obligations.LaunchStateIsTheParameters :=
  fun p => ⟨⟨_, rfl⟩, readKey_seed [] p.image⟩

/-! ### Canonical memories -/

theorem readKey_of_forall_ne {m : Memory} {a : Nat} (h : ∀ p ∈ m, p.1 ≠ a) :
    m.readKey a = Config.unlistedByte := by
  induction m with
  | nil => rfl
  | cons cell m ih =>
    rw [Memory.readKey, if_neg (h cell (by simp))]
    exact ih fun p hp => h p (by simp [hp])

/-- A canonical memory lists exactly the bytes that read otherwise than an unlisted address. -/
theorem mem_iff_readKey {m : Memory} (hm : Memory.wf m) (p : Host.Cell) :
    p ∈ m ↔ p.2 ≠ Config.unlistedByte ∧ m.readKey p.1 = p.2 := by
  induction m with
  | nil => simpa [Memory.readKey] using fun h e => h e.symm
  | cons cell m ih =>
    obtain ⟨hsorted, hcells⟩ := hm
    obtain ⟨hhead, htail⟩ := List.pairwise_cons.mp hsorted
    have ih := ih ⟨htail, fun q hq => hcells q (by simp [hq])⟩
    rw [List.mem_cons, Memory.readKey]
    by_cases hp : cell.1 = p.1
    · have hnot : p ∉ m := fun h => by have := hhead p h; omega
      have := (hcells cell (by simp)).1
      rw [if_pos hp]
      constructor
      · rintro (rfl | h)
        · exact ⟨this, rfl⟩
        · exact absurd h hnot
      · rintro ⟨-, h⟩
        exact .inl (Prod.ext hp.symm h.symm)
    · rw [if_neg hp, ← ih]
      exact or_iff_right fun e => hp (congrArg Prod.fst e).symm

/-- Canonical memories that read the same at every address are the same list: two sorted lists with the same members. -/
theorem eq_of_readKey_eq {m m' : Memory} (hm : Memory.wf m) (hm' : Memory.wf m')
    (h : ∀ a < 65536, m.readKey a = m'.readKey a) : m = m' := by
  have nodup {l : Memory} (hl : Memory.wf l) : l.Nodup := hl.1.imp fun hlt e => by rw [e] at hlt; omega
  have hmem (p : Host.Cell) : p ∈ m ↔ p ∈ m' := by
    constructor
    · intro hp
      have := (mem_iff_readKey hm p).mp hp
      rwa [h _ (hm.2 p hp).2, ← mem_iff_readKey hm'] at this
    · intro hp
      have := (mem_iff_readKey hm' p).mp hp
      rwa [← h _ (hm'.2 p hp).2, ← mem_iff_readKey hm] at this
  have hperm := (List.perm_ext_iff_of_nodup (nodup hm) (nodup hm')).mpr hmem
  exact hperm.eq_of_pairwise (fun p q _ _ hpq hqp => by omega) hm.1 hm'.1

/-- Writing the value a byte already holds changes nothing (R32). -/
theorem write_read_self {s : State} (hs : Memory.wf s.mem) (a : Addr) : s.write a (s.read a) = s := by
  have hmem : (s.write a (s.read a)).mem = s.mem := by
    refine eq_of_readKey_eq (write_wf hs a _) hs fun k _ => ?_
    rw [write_mem, readKey_writeKey]
    split
    next h => rw [h]; rfl
    next => rfl
  calc s.write a (s.read a) = { s with mem := (s.write a (s.read a)).mem } := rfl
    _ = s := by rw [hmem]

/-! ### The parts of an access list -/

/-- The pointer reads of an operand, low byte first, as R48 lists them before the PC advance. -/
def pointerReads (o : Operand) (s : State) : List Access :=
  match o with
  | .mem (.ind p) => [s.rdAt p, s.rdAt (p + 1)]
  | .mem (.izx b) => [s.rdAt (zeroPage (b + s.x)), s.rdAt (zeroPage (b + s.x + 1))]
  | .mem (.izy b) => [s.rdAt (zeroPage b), s.rdAt (zeroPage (b + 1))]
  | _ => []

theorem pointerReads_mem (m : MemOperand) (s : State) (k : Nat) :
    m.pointerReads (s.advance k) = pointerReads (.mem m) s := by
  cases m <;> rfl

/-- The accesses of `i` in `s` are its fetch, its pointer reads, and then `body`. -/
def Makes (i : Instr) (s : State) (body : List Access) : Prop :=
  i.accesses s = fetchAccesses (encode i).length s ++ pointerReads i.operand s ++ body

theorem encode_length (i : Instr) : (encode i).length = i.size := operand_bytes_length i

theorem location_eq_some {i : Instr} {s : State} {loc : Resolved} (h : i.location s = some loc) :
    ∃ m, i.operand = .mem m ∧ loc = m.resolve (i.atOperand s) := by
  unfold Instr.location at h
  split at h
  next m hm => exact ⟨m, hm, (Option.some.inj h).symm⟩
  all_goals cases h

theorem makes_operandAccesses {i : Instr} {s : State} {loc : Resolved} (hloc : i.location s = some loc) :
    Makes i s (i.mnemonic.operandAccesses loc.addr (i.atOperand s)) := by
  obtain ⟨m, hm, rfl⟩ := location_eq_some hloc
  simp only [Makes, Instr.accesses, Instr.bodyAccesses, Instr.atOperand, hm, encode_length, pointerReads_mem,
    List.append_assoc]

theorem makes_stackAccesses {i : Instr} (h : i.operand = .imp) (s : State) :
    Makes i s (i.mnemonic.stackAccesses (i.atOperand s)) := by
  simp only [Makes, Instr.accesses, Instr.bodyAccesses, h, encode_length, pointerReads, List.append_nil]

theorem makes_nil_of_acc_or_imm {i : Instr} (h : i.operand = .acc ∨ ∃ b, i.operand = .imm b) (s : State) :
    Makes i s [] := by
  obtain h | ⟨b, h⟩ := h <;>
    simp only [Makes, Instr.accesses, Instr.bodyAccesses, h, encode_length, pointerReads, List.append_nil]

theorem Makes.length {i : Instr} {s : State} {body : List Access} (h : Makes i s body) :
    (i.accesses s).length = i.operand.mode.size + (pointerReads i.operand s).length + body.length := by
  rw [h, encode_length, List.length_append, List.length_append, fetchAccesses_length, Instr.size]

/-! ### The classes of R95 -/

/-- The mnemonics of class read that take a memory operand. -/
abbrev readMnemonics : List Mnemonic := [.lda, .ldx, .ldy, .adc, .sbc, .cmp, .cpx, .cpy, .and, .ora, .eor, .bit]

/-- The mnemonics of class read-modify-write. -/
abbrev modifyMnemonics : List Mnemonic := [.asl, .lsr, .rol, .ror, .inc, .dec]

/-- The mnemonics that use their resolved address as a `PC` value and leave the stack alone. -/
abbrev jumpMnemonics : List Mnemonic := [.jmp, .bcc, .bcs, .beq, .bmi, .bne, .bpl, .bvc, .bvs]

/-- The implied mnemonics that touch registers and flags only. -/
abbrev registerMnemonics : List Mnemonic :=
  [.tax, .tay, .tsx, .txa, .txs, .tya, .inx, .iny, .dex, .dey, .clc, .sec, .cli, .sei, .cld, .sed, .clv, .nop]

/-- The implied mnemonics that access the stack. -/
abbrev stackMnemonics : List Mnemonic := [.pha, .php, .pla, .plp, .rts, .rti, .brk]

/-- The implied forms by mnemonic (30_encoding.md R55). -/
theorem operand_imp_iff (i : Instr) : i.operand = .imp ↔ i.mnemonic ∈ registerMnemonics ++ stackMnemonics := by
  cases i <;> simp [Instr.operand, Instr.mnemonic]

/-- The indirect mode is JMP's alone (30_encoding.md R55). -/
theorem mnemonic_of_operand_ind {i : Instr} {p : Addr} : i.operand = .mem (.ind p) → i.mnemonic = .jmp := by
  cases i <;> simp [Instr.operand, Instr.mnemonic]

theorem mnemonic_eq_jsr_iff (i : Instr) : i.mnemonic = .jsr ↔ ∃ a, i = .jsr a := by
  cases i <;> simp [Instr.mnemonic]

theorem operandAccesses_read {m : Mnemonic} (h : m ∈ readMnemonics) (a : Addr) (s : State) :
    m.operandAccesses a s = [s.rdAt a] := by
  fin_cases h <;> rfl

theorem operandAccesses_jump {m : Mnemonic} (h : m ∈ jumpMnemonics) (a : Addr) (s : State) :
    m.operandAccesses a s = [] := by
  fin_cases h <;> rfl

theorem stackAccesses_register {m : Mnemonic} (h : m ∈ registerMnemonics) (s : State) : m.stackAccesses s = [] := by
  fin_cases h <;> rfl

theorem operand_imp_of_register {i : Instr} (h : i.mnemonic ∈ registerMnemonics) : i.operand = .imp :=
  (operand_imp_iff i).mpr (List.mem_append_left _ h)

theorem makes_nil_of_register {i : Instr} (h : i.mnemonic ∈ registerMnemonics) (s : State) : Makes i s [] :=
  stackAccesses_register h (i.atOperand s) ▸ makes_stackAccesses (operand_imp_of_register h) s

/-- The body of an implied instruction of a known stack mnemonic. -/
theorem makes_stack {i : Instr} {m : Mnemonic} (hi : i.mnemonic = m) (hm : m ∈ stackMnemonics) (s : State) :
    Makes i s (m.stackAccesses (i.atOperand s)) := by
  subst hi
  exact makes_stackAccesses ((operand_imp_iff i).mpr (List.mem_append_right _ hm)) s

/-- The body of an instruction with a location and a known mnemonic. -/
theorem makes_operand {i : Instr} {m : Mnemonic} (hi : i.mnemonic = m) {s : State} {loc : Resolved}
    (hloc : i.location s = some loc) : Makes i s (m.operandAccesses loc.addr (i.atOperand s)) := by
  subst hi
  exact makes_operandAccesses hloc

theorem makes_read {i : Instr} (hi : i.mnemonic ∈ readMnemonics) {s : State} {loc : Resolved}
    (hloc : i.location s = some loc) : Makes i s [s.rdAt loc.addr] :=
  operandAccesses_read hi loc.addr (i.atOperand s) ▸ makes_operandAccesses hloc

theorem makes_nil_of_jump {i : Instr} (hi : i.mnemonic ∈ jumpMnemonics) {s : State} {loc : Resolved}
    (hloc : i.location s = some loc) : Makes i s [] :=
  operandAccesses_jump hi loc.addr (i.atOperand s) ▸ makes_operandAccesses hloc

/-! ### Read-modify-write -/

/-- The accesses of `i` at its operand are one read, then one write of the byte that `exec` leaves there. -/
def ListsItsRewrite (i : Instr) (m : MemOperand) (s : State) : Prop :=
  ∃ t, exec i s = .next t ∧
    i.mnemonic.operandAccesses (m.resolve (i.atOperand s)).addr (i.atOperand s) =
      [s.rdAt (m.resolve (i.atOperand s)).addr,
        .wr (m.resolve (i.atOperand s)).addr (t.read (m.resolve (i.atOperand s)).addr)]

theorem listsItsRewrite_of_modifyMem {i : Instr} {m : MemOperand} {s : State} {t : Timing}
    {h : Byte → State → Byte × State} (hop : i.operand = .mem m) (hexec : exec i s = modifyMem t m h s)
    (hacc : ∀ a u, i.mnemonic.operandAccesses a u = [u.rdAt a, .wr a (h (u.read a) u).1]) :
    ListsItsRewrite i m s := by
  have hsize : i.size = m.mode.size := by rw [Instr.size, hop, Operand.mode]
  refine ⟨_, hexec.trans (modifyMem_next ..), ?_⟩
  rw [hacc, Instr.atOperand, hsize, rdAt_advance]
  congr 3
  exact ((read_write ..).trans (if_pos rfl)).symm

theorem modify_listsItsRewrite {i : Instr} {m : MemOperand} (hi : i.mnemonic ∈ modifyMnemonics)
    (hop : i.operand = .mem m) (s : State) : ListsItsRewrite i m s := by
  cases i
  case incZp | incZpx | incAbs | incAbx | decZp | decZpx | decAbs | decAbx | aslZp | aslZpx | aslAbs | aslAbx |
      lsrZp | lsrZpx | lsrAbs | lsrAbx | rolZp | rolZpx | rolAbs | rolAbx | rorZp | rorZpx | rorAbs | rorAbx =>
    cases hop
    exact listsItsRewrite_of_modifyMem rfl rfl fun _ _ => rfl
  case aslAcc | lsrAcc | rolAcc | rorAcc => cases hop
  all_goals simp [Instr.mnemonic] at hi

theorem makes_rewrite {i : Instr} {s : State} {loc : Resolved} (hloc : i.location s = some loc)
    (hi : i.mnemonic ∈ modifyMnemonics) :
    ∃ t, exec i s = .next t ∧ Makes i s [s.rdAt loc.addr, .wr loc.addr (t.read loc.addr)] := by
  have hmakes := makes_operandAccesses hloc
  obtain ⟨m, hm, rfl⟩ := location_eq_some hloc
  obtain ⟨t, hexec, hacc⟩ := modify_listsItsRewrite hi hm s
  exact ⟨t, hexec, hacc ▸ hmakes⟩

/-! ### How many accesses -/

theorem operandAccesses_length_le (m : Mnemonic) (a : Addr) (s : State) : (m.operandAccesses a s).length ≤ 2 := by
  cases m <;> simp [Mnemonic.operandAccesses]

theorem stackAccesses_length_le (m : Mnemonic) (s : State) : (m.stackAccesses s).length ≤ 5 := by
  cases m <;> simp [Mnemonic.stackAccesses]

/-- Fetch and pointer reads of every memory mode but IND leave room for two accesses at the operand; IND has none. -/
theorem accesses_length_le (i : Instr) (s : State) : (i.accesses s).length ≤ 6 := by
  match h : i.operand with
  | .imp =>
    have := stackAccesses_length_le i.mnemonic (i.atOperand s)
    rw [(makes_stackAccesses h s).length, h]
    simp only [Operand.mode, Mode.size, pointerReads, List.length_nil]
    omega
  | .acc =>
    rw [(makes_nil_of_acc_or_imm (.inl h) s).length, h]
    simp [Operand.mode, Mode.size, pointerReads]
  | .imm b =>
    rw [(makes_nil_of_acc_or_imm (.inr ⟨b, h⟩) s).length, h]
    simp [Operand.mode, Mode.size, pointerReads]
  | .mem m =>
    have hloc : i.location s = some (m.resolve (i.atOperand s)) := by rw [Instr.location, h]
    have := operandAccesses_length_le i.mnemonic (m.resolve (i.atOperand s)).addr (i.atOperand s)
    rw [(makes_operandAccesses hloc).length, h]
    cases m with
    | ind p =>
      rw [mnemonic_of_operand_ind h, operandAccesses_jump (by decide)]
      simp [Operand.mode, MemOperand.mode, Mode.size, pointerReads]
    | _ =>
      simp only [Operand.mode, MemOperand.mode, Mode.size, pointerReads, List.length_nil, List.length_cons]
      omega

theorem accesses_length_pos (i : Instr) (s : State) : 1 ≤ (i.accesses s).length := by
  rw [Instr.accesses, List.length_append, fetchAccesses_length, ← operand_bytes_length]
  omega

theorem accesses_length_of_acc_or_register {i : Instr} (s : State)
    (h : i.operand = .acc ∨ i.mnemonic ∈ registerMnemonics) : (i.accesses s).length = 1 := by
  rcases h with h | h
  · rw [(makes_nil_of_acc_or_imm (.inl h) s).length, h]
    rfl
  · rw [(makes_nil_of_register h s).length, operand_imp_of_register h]
    rfl

/-! ### The stack accesses, with the addresses the rules count from the state before -/

theorem add_one_one (b : Byte) : b + 1 + 1 = b + 2 := by bv_omega

theorem add_one_one_one (b : Byte) : b + 1 + 1 + 1 = b + 3 := by bv_omega

theorem sub_one_one (b : Byte) : b - 1 - 1 = b - 2 := by bv_omega

/-- JSR pushes the address of its own last byte (44_branch_jump.md R159). -/
theorem makes_jsr {i : Instr} {s : State} {loc : Resolved} (hi : i.mnemonic = .jsr) (hloc : i.location s = some loc) :
    Makes i s [.wr (stackAddr s.sp) (Machine.hi (s.pc + 2)), .wr (stackAddr (s.sp - 1)) (lo (s.pc + 2))] := by
  obtain ⟨a, rfl⟩ := (mnemonic_eq_jsr_iff i).mp hi
  rw [← jsr_return_address a s]
  exact makes_operandAccesses hloc

theorem makes_pull {i : Instr} (hi : i.mnemonic ∈ [.pla, .plp]) (s : State) :
    Makes i s [s.rdAt (stackAddr (s.sp + 1))] := by
  have hi : i.mnemonic = .pla ∨ i.mnemonic = .plp := by simpa using hi
  obtain hi | hi := hi <;> exact makes_stack hi (by decide) s

theorem makes_rts {i : Instr} (hi : i.mnemonic = .rts) (s : State) :
    Makes i s [s.rdAt (stackAddr (s.sp + 1)), s.rdAt (stackAddr (s.sp + 2))] := by
  rw [← add_one_one]
  exact makes_stack hi (by decide) s

theorem makes_rti {i : Instr} (hi : i.mnemonic = .rti) (s : State) :
    Makes i s [s.rdAt (stackAddr (s.sp + 1)), s.rdAt (stackAddr (s.sp + 2)), s.rdAt (stackAddr (s.sp + 3))] := by
  rw [← add_one_one, ← add_one_one_one]
  exact makes_stack hi (by decide) s

/-- BRK pushes the address two past its opcode and the status byte, then reads its vector
(45_stack_flag_system.md R182). -/
theorem makes_brk {i : Instr} (hi : i.mnemonic = .brk) (s : State) :
    Makes i s [.wr (stackAddr s.sp) (Machine.hi (s.pc + 2)), .wr (stackAddr (s.sp - 1)) (lo (s.pc + 2)),
      .wr (stackAddr (s.sp - 2)) s.pushedStatus, s.rdAt 0xFFFE, s.rdAt 0xFFFF] := by
  obtain rfl := (mnemonic_eq_brk_iff i).mp hi
  rw [← brk_return_address s, ← sub_one_one]
  exact makes_stack hi (by decide) s

/-- Settles O28: every instruction makes its fetch, its pointer reads and the body of its class; the counts follow from
the lengths of the three parts. -/
theorem busAccessesAreOneToSixBytes : Obligations.BusAccessesAreOneToSixBytes := by
  refine ⟨fun i s => ⟨accesses_length_pos i s, accesses_length_le i s⟩,
    fun i s => accesses_length_of_acc_or_register s, fun s => (makes_brk rfl s).length,
    fun s a hs => write_read_self hs a, fun i s => ⟨fun loc hloc => ?_, ?_⟩⟩
  · exact ⟨fun hi => makes_read hi hloc, fun hi => makes_operand hi hloc, fun hi => makes_operand hi hloc,
      fun hi => makes_operand hi hloc, makes_rewrite hloc, fun hi => makes_nil_of_jump hi hloc,
      fun hi => makes_jsr hi hloc⟩
  · exact ⟨fun h => makes_nil_of_acc_or_imm (.inl h) s, fun b h => makes_nil_of_acc_or_imm (.inr ⟨b, h⟩) s,
      fun hi => makes_nil_of_register hi s, fun hi => makes_stack hi (by decide) s,
      fun hi => makes_stack hi (by decide) s, fun hi => makes_pull hi s, fun hi => makes_rts hi s,
      fun hi => makes_rti hi s, fun hi => makes_brk hi s⟩

end Sys2Proof.Proofs
end

section
/-!
PROOFS. The encoding (30_encoding.md): the undefined opcodes (R57), the sizes (R52), the penalty bits and what the engine
makes of them (R62; 40_engine_and_addressing.md R74), and the bit patterns of the modes (R56).
-/

namespace Sys2Proof.Proofs

open Sys2Proof.Machine Sys2Proof.Laws

/-! ### Undefined opcodes -/

theorem mem_opcodeTable_of_decodeRecord {op : Byte} {d : OpRecord} (h : decodeRecord op = some d) :
    d ∈ opcodeTable ∧ d.opcode = op :=
  ⟨List.mem_of_find?_eq_some h, by simpa using List.find?_some h⟩

/-- The decoder gives an instruction for its own opcode only: row and column of its matrix cell are the two nibbles. -/
theorem opcode_of_instrOf {op b1 b2 : Byte} {i : Instr} (h : instrOf op b1 b2 = some i) : i.opcode = op := by
  have hop := Nat.div_add_mod op.toNat 16
  apply BitVec.eq_of_toNat_eq
  simp only [instrOf] at h
  split at h
  case h_17 => cases h
  all_goals
    next hrow =>
    simp only [matrixRow0, matrixRow1, matrixRow2, matrixRow3, matrixRow4, matrixRow5, matrixRow6, matrixRow7, matrixRow8,
      matrixRow9, matrixRowA, matrixRowB, matrixRowC, matrixRowD, matrixRowE, matrixRowF] at h
    split at h <;> cases h
    all_goals
      next hcolumn =>
      rw [hrow, hcolumn] at hop
      exact hop

/-- Every row of the table has its cell in the matrix, whatever the operand bytes are. -/
theorem instrOf_isSome_of_mem_opcodeTable (b1 b2 : Byte) {r : OpRecord} (h : r ∈ opcodeTable) :
    (instrOf r.opcode b1 b2).isSome = true :=
  List.all_eq_true.mp (rfl : opcodeTable.all (fun r => (instrOf r.opcode b1 b2).isSome) = true) r h

/-- The matrix and the table of R55 define the same opcodes. -/
theorem instrOf_eq_none_iff (op b1 b2 : Byte) : instrOf op b1 b2 = none ↔ decodeRecord op = none := by
  constructor
  · intro hi
    by_contra hd
    obtain ⟨d, hd⟩ := Option.ne_none_iff_exists'.mp hd
    obtain ⟨hmem, rfl⟩ := mem_opcodeTable_of_decodeRecord hd
    have hsome := instrOf_isSome_of_mem_opcodeTable b1 b2 hmem
    simp [hi] at hsome
  · intro hd
    by_contra hi
    obtain ⟨i, hi⟩ := Option.ne_none_iff_exists'.mp hi
    have hrecord := record_of_instr i
    simp [opcode_of_instrOf hi, hd] at hrecord

/-- A defined opcode is refused for want of operand bytes only. -/
theorem decode_of_defined {op : Byte} {d : OpRecord} (hd : decodeRecord op = some d) (rest : List Byte) :
    decode (op :: rest) = .error .truncated ∨ ∃ a, decode (op :: rest) = .ok a := by
  have hinstr (b1 b2 : Byte) : ∃ i, instrOf op b1 b2 = some i :=
    Option.ne_none_iff_exists'.mp fun h => by simp [(instrOf_eq_none_iff op b1 b2).mp h] at hd
  simp only [decode, hd]
  split
  case h_1 => obtain ⟨i, hi⟩ := hinstr 0 0; exact .inr ⟨_, by rw [hi]⟩
  case h_2 _ b1 _ _ => obtain ⟨i, hi⟩ := hinstr b1 0; exact .inr ⟨_, by rw [hi]⟩
  case h_3 _ b1 b2 _ _ => obtain ⟨i, hi⟩ := hinstr b1 b2; exact .inr ⟨_, by rw [hi]⟩
  case h_4 => exact .inl rfl

theorem decode_eq_unknownOpcode_iff (op : Byte) (rest : List Byte) :
    decode (op :: rest) = .error (.unknownOpcode op) ↔ decodeRecord op = none := by
  constructor
  · intro h
    by_contra hd
    obtain ⟨d, hd⟩ := Option.ne_none_iff_exists'.mp hd
    obtain ht | ⟨a, ha⟩ := decode_of_defined hd rest
    · simp [ht] at h
    · simp [ha] at h
  · intro hd
    simp only [decode, hd]

/-- A Ready tick on an undefined opcode (40_engine_and_addressing.md R75; 60_exceptions.md R200). -/
theorem step_of_undefined {s : State} (hs : s.stall = 0) (hd : decodeRecord (s.read s.pc) = none) :
    step s = .fault (.unknownOpcode s.pc (s.read s.pc)) := by
  have hf : fetch s = none := by simp only [fetch, hd]
  simp only [step_ready hs, readyTransition, hf, Option.bind_none]

/-- Settles O3: the listed values are those without a row in the table, and decoder, matrix and tick refuse exactly
those. -/
theorem undefinedOpcodesAreExactlyTheListed : Obligations.UndefinedOpcodesAreExactlyTheListed := by
  unfold Obligations.UndefinedOpcodesAreExactlyTheListed
  intro undefinedValues
  have hlisted : ∀ op : Byte, op ∈ undefinedValues ↔ decodeRecord op = none := by
    intro op
    rw [← instrOf_eq_none_iff op 0 0, ← Option.isNone_iff_eq_none]
    revert op
    decide +kernel
  exact ⟨rfl, fun op rest => (hlisted op).trans (decode_eq_unknownOpcode_iff op rest).symm,
    fun op b1 b2 => (hlisted op).trans (instrOf_eq_none_iff op b1 b2).symm,
    fun s hs hop => step_of_undefined hs ((hlisted _).mp hop)⟩

/-! ### Sizes -/

/-- Settles O5: an instruction is as long as the size of its mode. -/
theorem sizeIsAFunctionOfTheMode : Obligations.SizeIsAFunctionOfTheMode := by
  refine ⟨fun i => ?_, rfl⟩
  rw [encode_length, Instr.size]
  cases i.operand.mode <;> rfl

/-! ### Penalties -/

/-- The page test of a branch target plays no part unless the branch is taken. -/
theorem finish_not_taken (t : Timing) (crossed bcross : Bool) (s : State) :
    finish t crossed false bcross s = finish t crossed false false s := by
  simp only [finish, Timing.extra, Bool.and_false, Bool.false_eq_true, if_false]

/-- The transition of `i` ends in the stall load of R74, with the cost record and the penalty conditions of `i` itself. -/
def FinishesAtItsCost (i : Instr) (s : State) : Prop :=
  ∃ u, exec i s = finish i.timing (i.crossed s) (i.mnemonic.takesBranch s) (i.targetCrosses s) u

theorem finishesAtItsCost_of_not_branch {i : Instr} {s u : State} (hb : i.mnemonic.takesBranch s = false)
    (h : exec i s = finish i.timing (i.crossed s) false false u) : FinishesAtItsCost i s :=
  ⟨u, by rw [h, hb, finish_not_taken _ _ (i.targetCrosses s)]⟩

/-- The shared branch handler (44_branch_jump.md R149), both ways. -/
theorem finishesAtItsCost_of_branch {i : Instr} {s : State} {off : Byte} (hop : i.operand = .mem (.rel off))
    (h : exec i s = branch i.timing (i.mnemonic.takesBranch s) off s) : FinishesAtItsCost i s := by
  have hloc : i.location s = some ((MemOperand.rel off).resolve (s.advance 2)) := by
    simp only [Instr.location, Instr.atOperand, Instr.size, hop]
    rfl
  have hcrossed : i.crossed s = false := by rw [Instr.crossed, hloc]; rfl
  cases hb : i.mnemonic.takesBranch s with
  | false => exact finishesAtItsCost_of_not_branch hb (by rw [h, hb, hcrossed]; rfl)
  | true =>
    refine ⟨{ s.advance 2 with pc := withOffset (s.pc + 2) off }, ?_⟩
    rw [h, hb, hcrossed, Instr.targetCrosses, hloc, Instr.atOperand, Instr.size, hop]
    rfl

theorem exec_finishesAtItsCost (i : Instr) (s : State) : FinishesAtItsCost i s := by
  cases i
  case bcc | bcs | beq | bmi | bne | bpl | bvc | bvs => exact finishesAtItsCost_of_branch rfl rfl
  all_goals exact finishesAtItsCost_of_not_branch rfl rfl

/-- The stall every instruction loads (40_engine_and_addressing.md R74). -/
theorem exec_stall (i : Instr) (s : State) :
    ∃ t, exec i s = .next t ∧
      t.stall = i.timing.cycles - 1 + i.timing.extra (i.crossed s) (i.mnemonic.takesBranch s) (i.targetCrosses s) := by
  obtain ⟨u, hu⟩ := exec_finishesAtItsCost i s
  exact ⟨_, hu.trans (finish_next ..), rfl⟩

/-- Settles O7: the bits are read off the rows of the table, and every transition ends in the stall load with its own
row's record. -/
theorem penaltyBitsAreTheListedOpcodes : Obligations.PenaltyBitsAreTheListedOpcodes := by
  unfold Obligations.PenaltyBitsAreTheListedOpcodes
  intro pageOpcodes branchOpcodes
  refine ⟨rfl, fun op d hd => ?_, fun i s => ?_⟩
  · have hrows : ∀ r ∈ opcodeTable,
        (r.timing.pageSensitive = true ↔ r.opcode ∈ pageOpcodes) ∧
          (r.timing.branchSensitive = true ↔ r.opcode ∈ branchOpcodes) ∧
          ¬(r.timing.pageSensitive = true ∧ r.timing.branchSensitive = true) := by decide +kernel
    obtain ⟨hmem, rfl⟩ := mem_opcodeTable_of_decodeRecord hd
    exact hrows d hmem
  · obtain ⟨t, hexec, hstall⟩ := exec_stall i s
    exact ⟨_, t, record_of_instr i, hexec, by simpa only [Timing.extra, Bool.and_eq_true] using hstall⟩

/-! ### Bit patterns -/

theorem modeByPattern_of_mem_opcodeTable : ∀ r ∈ opcodeTable, modeByPattern r.opcode = some r.mode := by
  decide +kernel

/-- Settles O8: the patterns are run on the 151 rows, and on every byte without a row. -/
theorem patternsGiveTheModeColumn : Obligations.PatternsGiveTheModeColumn :=
  ⟨modeByPattern_of_mem_opcodeTable, by decide +kernel⟩

end Sys2Proof.Proofs
end

section
/-!
PROOFS. The engine (40_engine_and_addressing.md R70 to R77): the fetch builds the Operation of the instruction that
stands at `PC`, a Stalled tick only counts down, an instruction lasts its cost in ticks, and no meaning looks at `stall`.
-/

namespace Sys2Proof.Proofs

open Sys2Proof.Machine Sys2Proof.Laws

/-! ### One tick -/

/-- Settles O18: the two ticks of R70. -/
theorem stalledTickOnlyCountsDown : Obligations.StalledTickOnlyCountsDown :=
  fun _ => ⟨step_stalled, step_ready⟩

/-! ### Fetch -/

/-- The decoder reads every instruction back from its own Operation: one law of `Encodes` per constructor. -/
theorem instr_toOperation (i : Instr) : i.toOperation.instr = some i :=
  Instr.rec (motive := Encodes.Statement)
    Encodes.ldaImm Encodes.ldaZp Encodes.ldaZpx Encodes.ldaAbs Encodes.ldaAbx Encodes.ldaAby Encodes.ldaIzx
    Encodes.ldaIzy Encodes.ldxImm Encodes.ldxZp Encodes.ldxZpy Encodes.ldxAbs Encodes.ldxAby Encodes.ldyImm
    Encodes.ldyZp Encodes.ldyZpx Encodes.ldyAbs Encodes.ldyAbx Encodes.staZp Encodes.staZpx Encodes.staAbs
    Encodes.staAbx Encodes.staAby Encodes.staIzx Encodes.staIzy Encodes.stxZp Encodes.stxZpy Encodes.stxAbs
    Encodes.styZp Encodes.styZpx Encodes.styAbs Encodes.tax Encodes.tay Encodes.tsx Encodes.txa Encodes.txs
    Encodes.tya Encodes.adcImm Encodes.adcZp Encodes.adcZpx Encodes.adcAbs Encodes.adcAbx Encodes.adcAby
    Encodes.adcIzx Encodes.adcIzy Encodes.sbcImm Encodes.sbcZp Encodes.sbcZpx Encodes.sbcAbs Encodes.sbcAbx
    Encodes.sbcAby Encodes.sbcIzx Encodes.sbcIzy Encodes.cmpImm Encodes.cmpZp Encodes.cmpZpx Encodes.cmpAbs
    Encodes.cmpAbx Encodes.cmpAby Encodes.cmpIzx Encodes.cmpIzy Encodes.cpxImm Encodes.cpxZp Encodes.cpxAbs
    Encodes.cpyImm Encodes.cpyZp Encodes.cpyAbs Encodes.incZp Encodes.incZpx Encodes.incAbs Encodes.incAbx Encodes.inx
    Encodes.iny Encodes.decZp Encodes.decZpx Encodes.decAbs Encodes.decAbx Encodes.dex Encodes.dey Encodes.andImm
    Encodes.andZp Encodes.andZpx Encodes.andAbs Encodes.andAbx Encodes.andAby Encodes.andIzx Encodes.andIzy
    Encodes.oraImm Encodes.oraZp Encodes.oraZpx Encodes.oraAbs Encodes.oraAbx Encodes.oraAby Encodes.oraIzx
    Encodes.oraIzy Encodes.eorImm Encodes.eorZp Encodes.eorZpx Encodes.eorAbs Encodes.eorAbx Encodes.eorAby
    Encodes.eorIzx Encodes.eorIzy Encodes.bitZp Encodes.bitAbs Encodes.aslAcc Encodes.aslZp Encodes.aslZpx
    Encodes.aslAbs Encodes.aslAbx Encodes.lsrAcc Encodes.lsrZp Encodes.lsrZpx Encodes.lsrAbs Encodes.lsrAbx
    Encodes.rolAcc Encodes.rolZp Encodes.rolZpx Encodes.rolAbs Encodes.rolAbx Encodes.rorAcc Encodes.rorZp
    Encodes.rorZpx Encodes.rorAbs Encodes.rorAbx Encodes.bcc Encodes.bcs Encodes.beq Encodes.bmi Encodes.bne
    Encodes.bpl Encodes.bvc Encodes.bvs Encodes.jmpAbs Encodes.jmpInd Encodes.jsr Encodes.rts Encodes.pha Encodes.php
    Encodes.pla Encodes.plp Encodes.clc Encodes.sec Encodes.cli Encodes.sei Encodes.cld Encodes.sed Encodes.clv
    Encodes.nop Encodes.brk Encodes.rti i

theorem size_le_three (i : Instr) : i.size ≤ 3 := by
  rw [Instr.size]
  cases i.operand.mode <;> decide

theorem read_pc_of_standsAtPC {i : Instr} {s : State} (h : StandsAtPC i s) : s.read s.pc = i.opcode := by
  simpa using h 0 i.opcode rfl

/-- What a fetch takes for operand byte `k`: the byte in memory if the size calls for it, else 0x00 (R71, R72). -/
theorem operandByte_of_standsAtPC {i : Instr} {s : State} (h : StandsAtPC i s) (k : Nat) :
    (if k + 2 ≤ i.size then s.read (s.pc + BitVec.ofNat 16 (k + 1)) else 0x00) = i.operand.bytes.getD k 0x00 := by
  have hlength := operand_bytes_length i
  split
  case isTrue hk =>
    have hk' : k < i.operand.bytes.length := by omega
    rw [List.getD_eq_getElem _ _ hk']
    exact h (k + 1) _ (List.getElem?_eq_getElem hk')
  case isFalse hk => exact (List.getD_eq_default _ _ (by omega)).symm

theorem fetch_of_standsAtPC {i : Instr} {s : State} (h : StandsAtPC i s) : fetch s = some i.toOperation := by
  have hsize : i.operand.mode.size = 3 ↔ 1 + 2 ≤ i.size := by
    have := size_le_three i
    rw [Instr.size] at this ⊢
    omega
  simp only [fetch, read_pc_of_standsAtPC h, record_of_instr, hsize, Instr.toOperation,
    ← operandByte_of_standsAtPC h]
  rfl

/-- A Ready tick executes the instruction whose bytes stand at `PC` (R71). -/
theorem step_of_standsAtPC {i : Instr} {s : State} (hs : s.stall = 0) (h : StandsAtPC i s) : step s = exec i s := by
  simp only [step_ready hs, readyTransition, fetch_of_standsAtPC h, Option.bind_some, instr_toOperation]

/-! ### The ticks of one instruction -/

/-- As many Stalled ticks as `stall` counts change nothing else (R70). -/
theorem runsTo_stalled {k : Nat} {s : State} (hk : k ≤ s.stall) : RunsTo k s { s with stall := s.stall - k } := by
  induction k generalizing s with
  | zero => rfl
  | succ k ih =>
    have htail : RunsTo k { s with stall := s.stall - 1 } { s with stall := s.stall - 1 - k } :=
      ih (s := { s with stall := s.stall - 1 }) (Nat.le_sub_one_of_lt hk)
    rw [Nat.sub_sub, Nat.add_comm 1 k] at htail
    exact (run_succ (step_stalled (by omega)) k).trans htail

/-- No penalty exceeds the one of a crossed page together with that of a branch taken to another page. -/
theorem extra_le (t : Timing) (crossed taken bcross : Bool) : t.extra crossed taken bcross ≤ t.extra true true true := by
  simp only [Timing.extra]
  generalize t.pageSensitive = page, t.branchSensitive = branch
  revert page branch crossed taken bcross
  decide

theorem cost_of_mem_opcodeTable : ∀ r ∈ opcodeTable,
    2 ≤ r.timing.cycles ∧ r.timing.cycles + r.timing.extra true true true ≤ 7 := by
  decide +kernel

/-- The shortest row takes 2 cycles; the longest, all its penalties included, 7 (R74). -/
theorem cost_of_instr (i : Instr) :
    2 ≤ i.timing.cycles ∧ i.timing.cycles + i.timing.extra true true true ≤ 7 :=
  cost_of_mem_opcodeTable _ (mem_opcodeTable_of_decodeRecord (record_of_instr i)).1

theorem ticks_bounds (i : Instr) (s : State) : 2 ≤ i.ticks s ∧ i.ticks s ≤ 7 := by
  obtain ⟨hlow, hhigh⟩ := cost_of_instr i
  have hextra := extra_le i.timing (i.crossed s) (i.mnemonic.takesBranch s) (i.targetCrosses s)
  rw [Instr.ticks]
  omega

/-- The stall load is the total cost less one (R74). -/
theorem exec_stall_eq_ticks (i : Instr) (s : State) : ∃ t, exec i s = .next t ∧ t.stall = i.ticks s - 1 := by
  obtain ⟨t, hexec, hstall⟩ := exec_stall i s
  obtain ⟨hlow, -⟩ := cost_of_instr i
  exact ⟨t, hexec, by rw [hstall, Instr.ticks]; omega⟩

/-- Settles O23: the first tick executes the instruction, the others count down the stall it loaded. -/
theorem instructionOccupiesExactlyItsTicks : Obligations.InstructionOccupiesExactlyItsTicks := by
  intro s i hs hi
  obtain ⟨t, hexec, hstall⟩ := exec_stall_eq_ticks i s
  obtain ⟨hlow, hhigh⟩ := ticks_bounds i s
  refine ⟨_, t, i.ticks s, record_of_instr i, hexec, ?_, hlow, hhigh, hstall, by omega, by omega, fun k hk hkn => ?_⟩
  · simp only [Instr.ticks, Timing.extra, Bool.and_eq_true]
  · obtain ⟨j, rfl⟩ : ∃ j, k = j + 1 := ⟨k - 1, by omega⟩
    have htail := runsTo_stalled (k := j) (s := t) (by omega)
    rw [hstall, Nat.sub_sub, Nat.add_comm 1 j] at htail
    exact (run_succ ((step_of_standsAtPC hs hi).trans hexec) j).trans htail

/-! ### `execute` -/

/-- No meaning reads `stall` (R25) and `finish` overwrites it: with the state taken apart into its fields, the two next
states of each instruction agree field by field. -/
theorem exec_ignores_stall (i : Instr) (s : State) (k : Nat) : exec i { s with stall := k } = exec i s := by
  cases s
  cases i <;> rfl

theorem execute_of_exec {o : Operation} {i : Instr} {s t : State} (ho : o.instr = some i) (h : exec i s = .next t) :
    execute o s = .next { t with stall := s.stall } := by
  simp only [execute, ho, h]

/-- Settles O25: `execute` answers the next state of `exec`, the same for every `stall`, with `stall` put back. -/
theorem executeIsTheTransitionWithoutPacing : Obligations.ExecuteIsTheTransitionWithoutPacing := by
  refine fun o s => ⟨fun i ho => ?_, fun ho => by simp only [execute, ho]⟩
  obtain ⟨t, hexec, -⟩ := exec_stall i s
  exact ⟨t, hexec, execute_of_exec ho hexec, fun k => execute_of_exec ho ((exec_ignores_stall i s k).trans hexec)⟩

end Sys2Proof.Proofs
end

section
/-!
PROOFS. Loads, stores and transfers (41_load_store_transfer.md R100 to R111). What an instruction of class read, write or
none (40_engine_and_addressing.md R95) does is said once per class; each statement is its class with its own handler.
-/

namespace Sys2Proof.Proofs

open Sys2Proof.Machine Sys2Proof.Laws

/-! ### From the handler's state to the sequential one -/

/-- A handler does the same whatever `stall` holds, and leaves `stall` as it found it (R25). -/
def PassesStall (h : State → State) : Prop :=
  ∀ (s : State) (k : Nat), h { s with stall := k } = { h s with stall := k }

/-- Handling the operand first and loading `stall` after it (R71) is handling it on the state that has both of the
engine's own writes, since the load is the total cost less one (R74). -/
theorem exec_eq_handler_sequential {i : Instr} {s : State} {h : State → State} {k : Nat} (hh : PassesStall h)
    (hexec : exec i s = .next { h (i.atOperand s) with stall := k }) : exec i s = .next (h (i.sequential s)) := by
  obtain ⟨t, ht, hstall⟩ := exec_stall_eq_ticks i s
  have hk : k = i.ticks s - 1 := by
    cases hexec.symm.trans ht
    exact hstall
  calc exec i s = .next { h (i.atOperand s) with stall := i.ticks s - 1 } := hk ▸ hexec
    _ = .next (h (i.sequential s)) := congrArg _ (hh (i.atOperand s) (i.ticks s - 1)).symm

theorem atOperand_of_imm {i : Instr} {b : Byte} (hop : i.operand = .imm b) (s : State) : i.atOperand s = s.advance 2 := by
  rw [Instr.atOperand, Instr.size, hop]
  rfl

theorem atOperand_of_mem {i : Instr} {m : MemOperand} (hop : i.operand = .mem m) (s : State) :
    i.atOperand s = s.advance m.mode.size := by
  rw [Instr.atOperand, Instr.size, hop, Operand.mode]

theorem location_of_mem {i : Instr} {m : MemOperand} (hop : i.operand = .mem m) (s : State) :
    i.location s = some (m.resolve (i.atOperand s)) := by
  rw [Instr.location, hop]

theorem operandValue_of_mem {i : Instr} {m : MemOperand} (hop : i.operand = .mem m) (s : State) :
    i.operandValue s = some ((i.atOperand s).read (m.resolve (i.atOperand s)).addr) := by
  rw [Instr.operandValue, hop]
  rfl

/-! ### Class read -/

/-- The handler of a mnemonic of class read. -/
def readHandler : Mnemonic → Byte → State → State
  | .lda => doLda
  | .ldx => doLdx
  | .ldy => doLdy
  | .adc => doAdc
  | .sbc => doSbc
  | .cmp => doCmp
  | .cpx => doCpx
  | .cpy => doCpy
  | .and => doAnd
  | .ora => doOra
  | .eor => doEor
  | .bit => doBit
  | _ => fun _ s => s

/-- The next state of `i` is what `h` makes of its operand byte and the sequential state. -/
def ReadsOperand (i : Instr) (h : Byte → State → State) (s : State) : Prop :=
  ∃ w, i.operandValue s = some w ∧ exec i s = .next (h w (i.sequential s))

theorem readsOperand_of_readImm {i : Instr} {s : State} {t : Timing} {b : Byte} {h : Byte → State → State}
    (hop : i.operand = .imm b) (hexec : exec i s = readImm t b h s) (hh : ∀ w, PassesStall (h w)) :
    ReadsOperand i h s := by
  rw [readImm_next, ← atOperand_of_imm hop] at hexec
  exact ⟨b, by rw [Instr.operandValue, hop], exec_eq_handler_sequential (hh b) hexec⟩

theorem readsOperand_of_readMem {i : Instr} {s : State} {t : Timing} {m : MemOperand} {h : Byte → State → State}
    (hop : i.operand = .mem m) (hexec : exec i s = readMem t m h s) (hh : ∀ w, PassesStall (h w)) :
    ReadsOperand i h s := by
  rw [readMem_next, ← atOperand_of_mem hop] at hexec
  exact ⟨_, operandValue_of_mem hop s, exec_eq_handler_sequential (hh _) hexec⟩

/-- Every instruction of class read, with its operand immediate or in memory. -/
theorem exec_read {i : Instr} {m : Mnemonic} (hi : i.mnemonic = m) (hm : m ∈ readMnemonics) (s : State) :
    ReadsOperand i (readHandler m) s := by
  subst hi
  cases i
  case ldaImm | ldxImm | ldyImm | adcImm | sbcImm | cmpImm | cpxImm | cpyImm | andImm | oraImm | eorImm =>
    exact readsOperand_of_readImm rfl rfl fun _ _ _ => rfl
  case ldaZp | ldaZpx | ldaAbs | ldaAbx | ldaAby | ldaIzx | ldaIzy | ldxZp | ldxZpy | ldxAbs | ldxAby |
      ldyZp | ldyZpx | ldyAbs | ldyAbx | adcZp | adcZpx | adcAbs | adcAbx | adcAby | adcIzx | adcIzy |
      sbcZp | sbcZpx | sbcAbs | sbcAbx | sbcAby | sbcIzx | sbcIzy | cmpZp | cmpZpx | cmpAbs | cmpAbx | cmpAby |
      cmpIzx | cmpIzy | cpxZp | cpxAbs | cpyZp | cpyAbs | andZp | andZpx | andAbs | andAbx | andAby | andIzx | andIzy |
      oraZp | oraZpx | oraAbs | oraAbx | oraAby | oraIzx | oraIzy | eorZp | eorZpx | eorAbs | eorAbx | eorAby |
      eorIzx | eorIzy | bitZp | bitAbs =>
    exact readsOperand_of_readMem rfl rfl fun _ _ _ => rfl
  all_goals simp [Instr.mnemonic] at hm

/-- Settles O30: a load's handler puts the operand byte into the register and calls `setZN` on it, which is how the
statement writes `Z` and `N`. -/
theorem loadsTakeTheOperandByte : Obligations.LoadsTakeTheOperandByte :=
  ⟨rfl, rfl, rfl, fun _ s => ⟨fun hi => exec_read hi (by decide) s, fun hi => exec_read hi (by decide) s,
    fun hi => exec_read hi (by decide) s⟩⟩

/-! ### Class write -/

theorem writesOnly_write (base : State) (a : Addr) (w : Byte) : WritesOnly base a w (base.write a w) :=
  ⟨rfl, fun b => read_write base a b w⟩

/-- The register that a mnemonic of class write stores. -/
def storedRegister : Mnemonic → State → Byte
  | .stx => State.x
  | .sty => State.y
  | _ => State.ac

/-- The next state of `i` is the sequential one with `w` written at the resolved address. -/
def StoresAtLocation (i : Instr) (w : Byte) (s : State) : Prop :=
  ∃ loc t, i.location s = some loc ∧ exec i s = .next t ∧ WritesOnly (i.sequential s) loc.addr w t

theorem storesAtLocation_of_storeMem {i : Instr} {s : State} {t : Timing} {m : MemOperand} {r : State → Byte} {w : Byte}
    (hop : i.operand = .mem m) (hexec : exec i s = storeMem t m r s) (hw : r (i.atOperand s) = w) :
    StoresAtLocation i w s := by
  rw [storeMem_next, ← atOperand_of_mem hop, hw] at hexec
  exact ⟨_, _, location_of_mem hop s,
    exec_eq_handler_sequential (h := fun u => u.write _ w) (fun _ _ => rfl) hexec, writesOnly_write ..⟩

/-- Every instruction of class write. -/
theorem exec_store {i : Instr} {m : Mnemonic} (hi : i.mnemonic = m) (hm : m ∈ [.sta, .stx, .sty]) (s : State) :
    StoresAtLocation i (storedRegister m s) s := by
  subst hi
  cases i
  case staZp | staZpx | staAbs | staAbx | staAby | staIzx | staIzy | stxZp | stxZpy | stxAbs | styZp | styZpx | styAbs =>
    exact storesAtLocation_of_storeMem rfl rfl rfl
  all_goals simp [Instr.mnemonic] at hm

/-- Settles O31: a store is one write on the sequential state. -/
theorem storesWriteOneByte : Obligations.StoresWriteOneByte :=
  ⟨rfl, rfl, rfl, fun _ s => ⟨fun hi => exec_store hi (by decide) s, fun hi => exec_store hi (by decide) s,
    fun hi => exec_store hi (by decide) s⟩⟩

/-! ### Class none -/

/-- An implied instruction of 2 cycles runs its handler one byte further and waits one more tick. -/
theorem implied_two_cycles {h : State → State} (hh : PassesStall h) (s : State) :
    implied { cycles := 2 } h s = .next (h { s with pc := s.pc + 1, stall := 1 }) :=
  (implied_next ..).trans (congrArg _ (hh (s.advance 1) 1).symm)

/-- Settles O32: each transfer is its handler on the advanced state; all but `doTxs` call `setZN` on the byte moved. -/
theorem transfersCopyARegister : Obligations.TransfersCopyARegister :=
  ⟨rfl, rfl, rfl, rfl, rfl, rfl, fun s => ⟨implied_two_cycles (h := doTax) (fun _ _ => rfl) s,
    implied_two_cycles (h := doTay) (fun _ _ => rfl) s, implied_two_cycles (h := doTsx) (fun _ _ => rfl) s,
    implied_two_cycles (h := doTxa) (fun _ _ => rfl) s, implied_two_cycles (h := doTxs) (fun _ _ => rfl) s,
    implied_two_cycles (h := doTya) (fun _ _ => rfl) s⟩⟩

end Sys2Proof.Proofs
end

section
/-!
PROOFS. Arithmetic, compare, increment and decrement (42_arithmetic.md R120 to R130). Adds, subtracts and compares are of
class read, INC and DEC of class read-modify-write (40_engine_and_addressing.md R95). SBC is ADC of the complemented
operand (R121), so what its overflow test means follows from what ADC's means.
-/

namespace Sys2Proof.Proofs

open Sys2Proof.Machine Sys2Proof.Laws

/-- The next state of class read, with the handler's result `f w` written out. -/
theorem ReadsOperand.next_eq {i : Instr} {h : Byte → State → State} {s : State} {f : Byte → State}
    (hi : ReadsOperand i h s) (hf : ∀ w, h w (i.sequential s) = f w) :
    ∃ w, i.operandValue s = some w ∧ exec i s = .next (f w) := by
  obtain ⟨w, hw, hexec⟩ := hi
  exact ⟨w, hw, hexec.trans (congrArg _ (hf w))⟩

/-! ### The overflow tests -/

theorem and_0x80_ne_zero_iff (w : Byte) : w &&& 0x80 ≠ 0 ↔ w.msb = true := by
  rw [show (0x80 : Byte) = BitVec.twoPow 8 7 from rfl, BitVec.and_twoPow, BitVec.msb_eq_getLsbD_last]
  split <;> simp_all

/-- ADC's test compares sign bits: those of the summands are equal, that of the result is another (R120). -/
theorem overflowAdd_test_iff (old m r : Byte) :
    ~~~(old ^^^ m) &&& (old ^^^ r) &&& 0x80 ≠ 0 ↔ old.msb = m.msb ∧ old.msb ≠ r.msb := by
  rw [and_0x80_ne_zero_iff]
  simp

/-- ADC's test is signed overflow: the sum wraps into the other sign exactly when it leaves the range of a signed byte. -/
theorem overflowAdd_test_iff_out_of_range (old m : Byte) (carry : Bool) :
    ~~~(old ^^^ m) &&& (old ^^^ BitVec.ofNat 8 (old.toNat + m.toNat + carry.toNat)) &&& 0x80 ≠ 0 ↔
      ¬(-128 ≤ old.toInt + m.toInt + carry.toNat ∧ old.toInt + m.toInt + carry.toNat ≤ 127) := by
  have hold := old.isLt
  have hm := m.isLt
  have hcarry := carry.toNat_le
  simp only [overflowAdd_test_iff, BitVec.msb_eq_decide, BitVec.toInt_eq_toNat_cond, BitVec.toNat_ofNat, ne_eq,
    decide_eq_decide]
  omega

/-- Subtracting the operand and the borrow is adding the complement and the carry (R121). -/
theorem sub_borrow_eq_add_not (old m : Byte) (carry : Bool) :
    old - m - BitVec.ofNat 8 (1 - carry.toNat) = BitVec.ofNat 8 (old.toNat + (~~~m).toNat + carry.toNat) := by
  have hxor : m ^^^ 0xFF = ~~~m := BitVec.xor_allOnes
  rw [← lowByte_complement, lowByte_sum9, hxor]

theorem toInt_not_byte (m : Byte) : (~~~m).toInt = -1 - m.toInt := by
  have hm := m.isLt
  simp only [BitVec.toInt_eq_toNat_cond, BitVec.toNat_not]
  omega

/-- SBC's test is signed overflow of the difference: it is ADC's test with the operand complemented (R121). -/
theorem overflowSub_test_iff_out_of_range (old m : Byte) (carry : Bool) :
    (old ^^^ m) &&& (old ^^^ (old - m - BitVec.ofNat 8 (1 - carry.toNat))) &&& 0x80 ≠ 0 ↔
      ¬(-128 ≤ old.toInt - m.toInt - (1 - carry.toNat : Int) ∧
        old.toInt - m.toInt - (1 - carry.toNat : Int) ≤ 127) := by
  have hxor : old ^^^ m = ~~~(old ^^^ ~~~m) := by rw [BitVec.not_xor_right, BitVec.not_not]
  have hsigned : old.toInt - m.toInt - (1 - carry.toNat : Int) = old.toInt + (~~~m).toInt + carry.toNat := by
    rw [toInt_not_byte]
    omega
  rw [hxor, hsigned, sub_borrow_eq_add_not]
  exact overflowAdd_test_iff_out_of_range old (~~~m) carry

/-! ### Handlers of class read -/

theorem doAdc_eq (m : Byte) (s : State) :
    let sum := s.ac.toNat + m.toNat + s.c.toNat
    let r := BitVec.ofNat 8 sum
    doAdc m s = { s with
      c := decide (0xFF < sum), ac := r, v := decide (~~~(s.ac ^^^ m) &&& (s.ac ^^^ r) &&& 0x80 ≠ 0)
      z := decide (r = 0x00), n := r.getLsbD 7 } := by
  simp only [doAdc, carryOut_sum9, lowByte_sum9, overflowAdd, ne_eq, decide_not]
  rfl

theorem doSbc_eq (m : Byte) (s : State) :
    let borrow := 1 - s.c.toNat
    let r := s.ac - m - BitVec.ofNat 8 borrow
    doSbc m s = { s with
      c := decide (m.toNat + borrow ≤ s.ac.toNat), ac := r
      v := decide ((s.ac ^^^ m) &&& (s.ac ^^^ r) &&& 0x80 ≠ 0), z := decide (r = 0x00), n := r.getLsbD 7 } := by
  simp only [doSbc, carryOut_complement, lowByte_complement, overflowSub, ne_eq, decide_not]
  rfl

/-- What the three compares do, each with its own register `r` (R122 to R124): the difference is zero exactly when `r` is
the operand. -/
theorem compare_eq (r m : Byte) (s : State) :
    ({ s with c := noBorrow r m } : State).setZN (r - m) =
      { s with c := decide (m.toNat ≤ r.toNat), z := decide (r = m), n := (r - m).getLsbD 7 } := by
  have hz : (r - m == 0x00) = decide (r = m) := decide_eq_decide.mpr sub_eq_zero
  rw [State.setZN, hz]
  rfl

/-- Settles O33: the handler on the sequential state, and the meaning of its overflow test. -/
theorem adcAddsWithCarry : Obligations.AdcAddsWithCarry :=
  ⟨rfl, fun i s hi => (exec_read hi (by decide) s).next_eq fun m => doAdc_eq m (i.sequential s),
    overflowAdd_test_iff_out_of_range⟩

/-- Settles O34: the handler on the sequential state, and the meaning of its overflow test. -/
theorem sbcSubtractsWithBorrow : Obligations.SbcSubtractsWithBorrow :=
  ⟨rfl, fun i s hi => (exec_read hi (by decide) s).next_eq fun m => doSbc_eq m (i.sequential s),
    overflowSub_test_iff_out_of_range⟩

/-- Settles O35: the three handlers are one comparison, each of its own register. -/
theorem comparesSetFlagsOnly : Obligations.ComparesSetFlagsOnly :=
  ⟨rfl, rfl, rfl, fun i s =>
    ⟨fun hi => (exec_read hi (by decide) s).next_eq fun m => compare_eq s.ac m (i.sequential s),
      fun hi => (exec_read hi (by decide) s).next_eq fun m => compare_eq s.x m (i.sequential s),
      fun hi => (exec_read hi (by decide) s).next_eq fun m => compare_eq s.y m (i.sequential s)⟩⟩

/-! ### Class read-modify-write -/

/-- The handler of a mnemonic of class read-modify-write. -/
def modifyHandler : Mnemonic → Byte → State → Byte × State
  | .asl => doAsl
  | .lsr => doLsr
  | .rol => doRol
  | .ror => doRor
  | .inc => doInc
  | .dec => doDec
  | _ => fun w s => (w, s)

/-- A read-modify-write handler does the same whatever `stall` holds, and leaves `stall` as it found it (R25). -/
def ModifyPassesStall (h : Byte → State → Byte × State) : Prop :=
  ∀ (w : Byte) (s : State) (k : Nat), h w { s with stall := k } = ((h w s).1, { (h w s).2 with stall := k })

/-- `i` rewrites its operand by what `h` makes of it and the sequential state. -/
def RewritesBy (i : Instr) (h : Byte → State → Byte × State) (s : State) : Prop :=
  Rewrites i s (fun w => (h w (i.sequential s)).1) (fun w t => (h w t).2)

theorem rewritesBy_of_modifyAcc {i : Instr} {s : State} {t : Timing} {h : Byte → State → Byte × State}
    (hop : i.operand = .acc) (hexec : exec i s = modifyAcc t h s) (hh : ModifyPassesStall h) : RewritesBy i h s := by
  have hat : i.atOperand s = s.advance 1 := by
    rw [Instr.atOperand, Instr.size, hop]
    rfl
  have hpass : PassesStall fun u => { (h s.ac u).2 with ac := (h s.ac u).1 } := fun u k => by
    simp only [hh s.ac u k]
  rw [modifyAcc_next, ← hat] at hexec
  exact ⟨fun _ => exec_eq_handler_sequential hpass hexec, fun hne => absurd hop hne⟩

theorem rewritesBy_of_modifyMem {i : Instr} {s : State} {t : Timing} {m : MemOperand} {h : Byte → State → Byte × State}
    (hop : i.operand = .mem m) (hexec : exec i s = modifyMem t m h s) (hh : ModifyPassesStall h) :
    RewritesBy i h s := by
  have hpass (a : Addr) (w : Byte) : PassesStall fun u => (h w u).2.write a (h w u).1 := fun u k => by
    simp only [hh w u k]
    rfl
  rw [modifyMem_next, ← atOperand_of_mem hop] at hexec
  exact ⟨fun hacc => by simp [hop] at hacc,
    fun _ => ⟨_, _, location_of_mem hop s, exec_eq_handler_sequential (hpass _ _) hexec, writesOnly_write ..⟩⟩

/-- Every instruction of class read-modify-write, on `AC` or on a byte of memory. -/
theorem exec_modify {i : Instr} {m : Mnemonic} (hi : i.mnemonic = m) (hm : m ∈ modifyMnemonics) (s : State) :
    RewritesBy i (modifyHandler m) s := by
  subst hi
  cases i
  case aslAcc | lsrAcc | rolAcc | rorAcc => exact rewritesBy_of_modifyAcc rfl rfl fun _ _ _ => rfl
  case incZp | incZpx | incAbs | incAbx | decZp | decZpx | decAbs | decAbx | aslZp | aslZpx | aslAbs | aslAbx |
      lsrZp | lsrZpx | lsrAbs | lsrAbx | rolZp | rolZpx | rolAbs | rolAbx | rorZp | rorZpx | rorAbs | rorAbx =>
    exact rewritesBy_of_modifyMem rfl rfl fun _ _ _ => rfl
  all_goals simp [Instr.mnemonic] at hm

/-- The accumulator forms are the shifts' alone (30_encoding.md R55). -/
theorem mnemonic_of_operand_acc {i : Instr} : i.operand = .acc → i.mnemonic ∈ [.asl, .lsr, .rol, .ror] := by
  cases i <;> simp [Instr.operand, Instr.mnemonic]

/-- INC and DEC have no accumulator form. -/
theorem operand_ne_acc {i : Instr} {m : Mnemonic} (hi : i.mnemonic = m) (hm : m ∉ [.asl, .lsr, .rol, .ror]) :
    i.operand ≠ .acc := by
  subst hi
  exact fun hacc => hm (mnemonic_of_operand_acc hacc)

/-- Settles O36: both are the rewriting of one byte, each with its own handler. -/
theorem incAndDecRewriteOneByte : Obligations.IncAndDecRewriteOneByte :=
  ⟨rfl, rfl, fun _ s => ⟨fun hi => ⟨operand_ne_acc hi (by decide), exec_modify hi (by decide) s⟩,
    fun hi => ⟨operand_ne_acc hi (by decide), exec_modify hi (by decide) s⟩⟩⟩

/-! ### Class none -/

/-- Settles O37: each counter is its handler on the advanced state, and calls `setZN` on the new value. -/
theorem indexRegistersCountByOne : Obligations.IndexRegistersCountByOne :=
  ⟨rfl, rfl, rfl, rfl, fun s => ⟨implied_two_cycles (h := doInx) (fun _ _ => rfl) s,
    implied_two_cycles (h := doIny) (fun _ _ => rfl) s, implied_two_cycles (h := doDex) (fun _ _ => rfl) s,
    implied_two_cycles (h := doDey) (fun _ _ => rfl) s⟩⟩

end Sys2Proof.Proofs
end

section
/-!
PROOFS. Logic, BIT, shifts and rotates (43_logic_shift.md R140 to R147). AND, ORA, EOR and BIT are of class read, the shifts
and rotates of class read-modify-write (40_engine_and_addressing.md R95), so what is left to say is each handler as numbers.
-/

namespace Sys2Proof.Proofs

open Sys2Proof.Machine Sys2Proof.Laws

/-! ### Class read -/

/-- Settles O38: the three handlers put the combined byte into `AC` and call `setZN` on it, which is how the statement
writes `Z` and `N`. -/
theorem logicCombinesTheAccumulator : Obligations.LogicCombinesTheAccumulator :=
  ⟨rfl, rfl, rfl, fun _ s => ⟨fun hi => exec_read hi (by decide) s, fun hi => exec_read hi (by decide) s,
    fun hi => exec_read hi (by decide) s⟩⟩

/-- Settles O39: `doBit` on the sequential state, whose `AC` is that of the state before. -/
theorem bitTestsTheOperand : Obligations.BitTestsTheOperand :=
  ⟨rfl, fun _ s hi => exec_read hi (by decide) s⟩

/-! ### The shifted byte as a number -/

theorem flagAt_eq_ofNat (f : Bool) (k : Nat) : flagAt f k = BitVec.ofNat 8 (2 ^ k * f.toNat) := by
  apply BitVec.eq_of_toNat_eq
  cases f <;> simp [flagAt, Nat.shiftLeft_eq]

/-- A flag put at a bit that is free adds that bit's weight. -/
theorem or_flagAt {w : Byte} {k : Nat} (hfree : w.getLsbD k = false) (f : Bool) :
    w ||| flagAt f k = w + BitVec.ofNat 8 (2 ^ k * f.toNat) := by
  have hdisjoint : w &&& flagAt f k = 0#8 := by
    cases f
    · simp [flagAt]
    · rw [show flagAt true k = BitVec.twoPow 8 k from rfl, BitVec.and_twoPow, hfree]
      rfl
  rw [← BitVec.add_eq_or_of_and_eq_zero _ _ hdisjoint, flagAt_eq_ofNat]

theorem shiftLeft_one_eq_ofNat (w : Byte) : w <<< 1 = BitVec.ofNat 8 (2 * w.toNat) := by
  rw [BitVec.shiftLeft_eq_mul_twoPow]
  bv_omega

theorem ushiftRight_one_eq_ofNat (w : Byte) : w >>> 1 = BitVec.ofNat 8 (w.toNat / 2) := by
  apply BitVec.eq_of_toNat_eq
  have hw := w.isLt
  rw [BitVec.toNat_ushiftRight, BitVec.toNat_ofNat, Nat.shiftRight_eq_div_pow]
  omega

/-- The left shift leaves bit 0 free for the old carry (R146). -/
theorem rotateLeft_eq_ofNat (w : Byte) (carry : Bool) :
    w <<< 1 ||| flagAt carry 0 = BitVec.ofNat 8 (2 * w.toNat + carry.toNat) := by
  rw [or_flagAt (by simp), shiftLeft_one_eq_ofNat, ← BitVec.ofNat_add, pow_zero, one_mul]

/-- The right shift leaves bit 7 free for the old carry (R147). -/
theorem rotateRight_eq_ofNat (w : Byte) (carry : Bool) :
    w >>> 1 ||| flagAt carry 7 = BitVec.ofNat 8 (w.toNat / 2 + 128 * carry.toNat) := by
  rw [or_flagAt (by simp), ushiftRight_one_eq_ofNat, ← BitVec.ofNat_add]
  rfl

theorem setZN_ofNat (s : State) (k : Nat) :
    s.setZN (BitVec.ofNat 8 k) = { s with z := decide (k % 256 = 0), n := decide (128 ≤ k % 256) } := by
  have hz : (BitVec.ofNat 8 k == 0x00) = decide (k % 256 = 0) := decide_eq_decide.mpr (by simp [← BitVec.toNat_inj])
  have hn : (BitVec.ofNat 8 k).msb = decide (128 ≤ k % 256) := by
    rw [BitVec.msb_eq_decide, BitVec.toNat_ofNat]
  rw [State.setZN, hz, hn]

/-! ### Class read-modify-write -/

/-- All four handlers give a byte `r`, put the bit that falls out into `C` and call `setZN` on `r` (R144 to R147); what
they rewrite and flag is said in numbers once `r` is the number `f`. -/
theorem RewritesBy.shift_eq {i : Instr} {h : Byte → State → Byte × State} {s : State} {r : Byte → Byte} {out : Byte → Bool}
    {f : Byte → Nat} (hi : RewritesBy i h s) (hr : ∀ w, r w = BitVec.ofNat 8 (f w))
    (hh : ∀ w, h w (i.sequential s) = (r w, { i.sequential s with c := out w }.setZN (r w))) :
    Rewrites i s (fun w => BitVec.ofNat 8 (f w)) (fun w t => { t with
      c := out w, z := decide (f w % 256 = 0), n := decide (128 ≤ f w % 256) }) := by
  simpa only [RewritesBy, Rewrites, hh, hr, setZN_ofNat] using hi

/-- Settles O40: each handler on the sequential state, whose `C` is that of the state before, with its shifted or rotated
byte as a number. -/
theorem shiftsMoveOneBitThroughCarry : Obligations.ShiftsMoveOneBitThroughCarry :=
  ⟨rfl, rfl, rfl, rfl, fun _ s =>
    ⟨fun hi => (exec_modify hi (by decide) s).shift_eq shiftLeft_one_eq_ofNat fun _ => rfl,
      fun hi => (exec_modify hi (by decide) s).shift_eq ushiftRight_one_eq_ofNat fun _ => rfl,
      fun hi => (exec_modify hi (by decide) s).shift_eq (rotateLeft_eq_ofNat · s.c) fun _ => rfl,
      fun hi => (exec_modify hi (by decide) s).shift_eq (rotateRight_eq_ofNat · s.c) fun _ => rfl⟩⟩

end Sys2Proof.Proofs
end

section
/-!
PROOFS. Branches, jumps, call and return (44_branch_jump.md R149 to R161). The eight branches are one handler; what JSR and
RTS do is said once, over the stack's own laws (40_engine_and_addressing.md R99); and every instruction is put under the
registers it writes.
-/

namespace Sys2Proof.Proofs

open Sys2Proof.Machine Sys2Proof.Laws

/-! ### Branches -/

/-- What a taken branch waits: the page test as a division, and one tick more when it fails (R149). -/
theorem taken_branch_stall (target following : Addr) :
    let t : Timing := { cycles := 2, branchSensitive := true }
    t.cycles - 1 + t.extra false true (hi target != hi following) =
      if target.toNat / 256 = following.toNat / 256 then 2 else 3 := by
  rw [hi_bne]
  split <;> simp [Timing.extra, *]

/-- The shared handler of R149 with the record of the eight branches, its target an integer sum. -/
theorem branch_eq (cond : Bool) (off : Byte) (s : State) :
    let following := s.pc + 2
    let target := BitVec.ofInt 16 (following.toNat + off.toInt)
    branch { cycles := 2, branchSensitive := true } cond off s = .next (
      if cond then
        { s with pc := target, stall := if target.toNat / 256 = following.toNat / 256 then 2 else 3 }
      else { s with pc := following, stall := 1 }) := by
  intro following target
  have htarget : target = withOffset (s.pc + 2) off := ofInt_withOffset (s.pc + 2) off
  rw [branch_next, ← htarget, taken_branch_stall]
  rfl

/-- Settles O41: the eight are the shared handler, each with its own flag. -/
theorem branchesTestOneFlag : Obligations.BranchesTestOneFlag :=
  ⟨rfl, rfl, rfl, rfl, rfl, rfl, rfl, rfl, fun s off =>
    ⟨branch_eq (!s.c) off s, branch_eq s.c off s, branch_eq s.z off s, branch_eq s.n off s, branch_eq (!s.z) off s,
      branch_eq (!s.n) off s, branch_eq (!s.v) off s, branch_eq s.v off s⟩⟩

/-! ### JMP -/

theorem ofNat_succ_mod (a : Addr) : BitVec.ofNat 16 ((a.toNat + 1) % 65536) = a + 1 := by bv_omega

/-- Settles O42: both forms load the resolved address, and the pointer's high byte comes from the next address (R89). -/
theorem jmpLoadsPC : Obligations.JmpLoadsPC := by
  refine ⟨rfl, fun s a => ⟨rfl, ?_⟩⟩
  rw [ofNat_succ_mod]
  rfl

/-! ### Call and return -/

/-- JSR pushes the address of its own last byte and loads its operand (R159). -/
theorem exec_jsr (s : State) (a : Addr) :
    exec (.jsr a) s = .next { s.push16 (s.pc + 2) with pc := a, stall := 5 } := by
  rw [← jsr_return_address a s]
  rfl

/-- The two bytes of a pushed address do not share an address. -/
theorem stackAddr_sub_one_ne (p : Byte) : stackAddr (p - 1) ≠ stackAddr p := by
  rw [ne_eq, stackAddr_inj]
  bv_omega

/-- Settles O43: the pushed address fills the two bytes from the stack pointer down. -/
theorem jsrPushesItsLastByteAddress : Obligations.JsrPushesItsLastByteAddress := by
  refine ⟨rfl, fun s a => ⟨_, exec_jsr s a, ?_, fun b => ?_⟩⟩
  · rw [← sub_one_one]
    rfl
  · have hne : b = stackAddr (s.sp - 1) → b ≠ stackAddr s.sp := fun h => h ▸ stackAddr_sub_one_ne s.sp
    rw [ofNat_stackAddr, ofNat_stackAddr]
    exact (push16_read s (s.pc + 2) b).trans (ite_ite_comm (h := hne) ..)

/-- RTS pulls an address and loads the one after it (R160). -/
theorem exec_rts (s : State) :
    exec .rts s = .next { s with
      pc := fromBytes (s.read (stackAddr (s.sp + 2))) (s.read (stackAddr (s.sp + 1))) + 1
      sp := s.sp + 2, stall := 5 } := by
  rw [← add_one_one]
  rfl

/-- One past a pulled address, from its two bytes as numbers. -/
theorem ofNat_fromBytes_succ (h l : Byte) : BitVec.ofNat 16 (h.toNat * 256 + l.toNat + 1) = fromBytes h l + 1 := by
  rw [← fromBytes_toNat, BitVec.ofNat_add, BitVec.ofNat_toNat, BitVec.setWidth_eq]
  rfl

/-- Settles O44: the pulled address and 1 more, by its bytes as numbers. -/
theorem rtsPullsAndAddsOne : Obligations.RtsPullsAndAddsOne := by
  refine ⟨rfl, fun s => ?_⟩
  simp only [ofNat_stackAddr, ofNat_fromBytes_succ]
  exact exec_rts s

/-! ### Which registers an instruction writes -/

/-- From `u` to `t`, `i` writes none of `PC`, `SP`, `AC`, `X` and `Y` but those whose list of writers names it (R161;
10_state.md R12 to R15). -/
def WritesListedRegisters (i : Instr) (u t : State) : Prop :=
  (i.mnemonic ∉ [.bcc, .bcs, .beq, .bmi, .bne, .bpl, .bvc, .bvs, .jmp, .jsr, .rts, .rti, .brk] → t.pc = u.pc) ∧
    (i.mnemonic ∉ [.txs, .pha, .php, .pla, .plp, .jsr, .rts, .brk, .rti] → t.sp = u.sp) ∧
    (i.mnemonic ∉ [.lda, .pla, .txa, .tya, .adc, .sbc, .and, .ora, .eor] → i.operand ≠ .acc → t.ac = u.ac) ∧
    (i.mnemonic ∉ [.ldx, .tax, .tsx, .inx, .dex] → t.x = u.x) ∧
    (i.mnemonic ∉ [.ldy, .tay, .iny, .dey] → t.y = u.y)

/-- Every instruction by the registers it writes after the `PC` advance (40_engine_and_addressing.md R73). -/
theorem exec_writesListedRegisters (i : Instr) (s : State) :
    ∃ t, exec i s = .next t ∧ WritesListedRegisters i (i.atOperand s) t := by
  cases i
  -- `AC`
  case ldaImm | ldaZp | ldaZpx | ldaAbs | ldaAbx | ldaAby | ldaIzx | ldaIzy | adcImm | adcZp | adcZpx | adcAbs |
      adcAbx | adcAby | adcIzx | adcIzy | sbcImm | sbcZp | sbcZpx | sbcAbs | sbcAbx | sbcAby | sbcIzx | sbcIzy |
      andImm | andZp | andZpx | andAbs | andAbx | andAby | andIzx | andIzy | oraImm | oraZp | oraZpx | oraAbs |
      oraAbx | oraAby | oraIzx | oraIzy | eorImm | eorZp | eorZpx | eorAbs | eorAbx | eorAby | eorIzx | eorIzy |
      txa | tya =>
    exact ⟨_, rfl, fun _ => rfl, fun _ => rfl, absurd (by simp [Instr.mnemonic]), fun _ => rfl, fun _ => rfl⟩
  case aslAcc | lsrAcc | rolAcc | rorAcc =>
    exact ⟨_, rfl, fun _ => rfl, fun _ => rfl, fun _ => absurd rfl, fun _ => rfl, fun _ => rfl⟩
  -- `X`
  case ldxImm | ldxZp | ldxZpy | ldxAbs | ldxAby | tax | tsx | inx | dex =>
    exact ⟨_, rfl, fun _ => rfl, fun _ => rfl, fun _ _ => rfl, absurd (by simp [Instr.mnemonic]), fun _ => rfl⟩
  -- `Y`
  case ldyImm | ldyZp | ldyZpx | ldyAbs | ldyAbx | tay | iny | dey =>
    exact ⟨_, rfl, fun _ => rfl, fun _ => rfl, fun _ _ => rfl, fun _ => rfl, absurd (by simp [Instr.mnemonic])⟩
  -- `SP`
  case txs | pha | php | plp =>
    exact ⟨_, rfl, fun _ => rfl, absurd (by simp [Instr.mnemonic]), fun _ _ => rfl, fun _ => rfl, fun _ => rfl⟩
  -- `SP` and `AC`
  case pla =>
    exact ⟨_, rfl, fun _ => rfl, absurd (by simp [Instr.mnemonic]), absurd (by simp [Instr.mnemonic]), fun _ => rfl,
      fun _ => rfl⟩
  -- `SP` and `PC`
  case jsr | rts | rti | brk =>
    exact ⟨_, rfl, absurd (by simp [Instr.mnemonic]), absurd (by simp [Instr.mnemonic]), fun _ _ => rfl, fun _ => rfl,
      fun _ => rfl⟩
  -- `PC`
  case jmpAbs | jmpInd =>
    exact ⟨_, rfl, absurd (by simp [Instr.mnemonic]), fun _ => rfl, fun _ _ => rfl, fun _ => rfl, fun _ => rfl⟩
  case bcc | bcs | beq | bmi | bne | bpl | bvc | bvs =>
    refine ⟨_, branch_next .., absurd (by simp [Instr.mnemonic]), ?_⟩
    split <;> exact ⟨fun _ => rfl, fun _ _ => rfl, fun _ => rfl, fun _ => rfl⟩
  -- stores, compares, BIT, the read-modify-writes of a byte in memory, the flag instructions and NOP
  all_goals exact ⟨_, rfl, fun _ => rfl, fun _ => rfl, fun _ _ => rfl, fun _ => rfl, fun _ => rfl⟩

theorem atOperand_pc_toNat (i : Instr) (s : State) :
    (i.atOperand s).pc.toNat = (s.pc.toNat + (encode i).length) % 65536 := by
  simp [Instr.atOperand, encode_length]

/-- Settles O54: the advanced `PC` is the address plus the size, and the advance touches no other register. -/
theorem onlyControlTransfersLeaveTheSequence : Obligations.OnlyControlTransfersLeaveTheSequence := by
  intro i s
  obtain ⟨t, hexec, hpc, hregisters⟩ := exec_writesListedRegisters i s
  exact ⟨t, hexec, fun hi => (congrArg _ (hpc hi)).trans (atOperand_pc_toNat i s), hregisters⟩

end Sys2Proof.Proofs
end

section
/-!
PROOFS. Stack, flag and system instructions (45_stack_flag_system.md R170 to R183). All are of class none
(40_engine_and_addressing.md R95), so each is its handler on the advanced state: a push is one write, a pull one read, and
the trap entry and the trap return have laws of their own. NOP alone only advances.
-/

namespace Sys2Proof.Proofs

open Sys2Proof.Machine Sys2Proof.Laws

/-- An implied instruction runs its handler one byte further and waits its cost less the tick that ran it (R74). -/
theorem implied_eq {h : State → State} {k : Nat} (hh : PassesStall h) (s : State) :
    implied { cycles := k + 1 } h s = .next (h { s with pc := s.pc + 1, stall := k }) :=
  (implied_next ..).trans (congrArg _ (hh (s.advance 1) k).symm)

/-! ### Push and pull -/

theorem writesOnly_push (s : State) (w : Byte) :
    WritesOnly { s with sp := s.sp - 1 } (BitVec.ofNat 16 (0x100 + s.sp.toNat)) w (s.push w) := by
  rw [ofNat_stackAddr]
  exact writesOnly_write ..

/-- Settles O46: each is one push on the advanced state, and the status byte as a number does not hold `B`. -/
theorem pushesWriteOneStackByte : Obligations.PushesWriteOneStackByte := by
  refine ⟨rfl, rfl, fun s => ⟨⟨_, implied_eq (h := doPha) (fun _ _ => rfl) s, writesOnly_push ..⟩,
    ⟨_, implied_eq (h := doPhp) (fun _ _ => rfl) s, ?_⟩⟩⟩
  rw [← pushedStatus_eq]
  exact writesOnly_push ..

/-- Settles O47: each is one pull on the advanced state, with `setZN` or `setP` on the byte pulled. -/
theorem pullsReadOneStackByte : Obligations.PullsReadOneStackByte := by
  refine ⟨rfl, rfl, fun s => ?_⟩
  simp only [ofNat_stackAddr]
  exact ⟨implied_eq (h := doPla) (fun _ _ => rfl) s, implied_eq (h := doPlp) (fun _ _ => rfl) s⟩

/-! ### Trap entry and trap return -/

theorem sub_one_one_one (b : Byte) : b - 1 - 1 - 1 = b - 3 := by bv_omega

/-- BRK is the trap entry on the advanced state (R182). -/
theorem exec_brk (s : State) : exec .brk s = .next { (s.advance 1).takeTrap with stall := 6 } := rfl

/-- Memory after the trap entry, from the stack pointer down: the three bytes do not share an address. -/
theorem takeTrap_read_downwards (s : State) (a : Addr) :
    s.takeTrap.read a =
      if a = stackAddr s.sp then hi (s.pc + 1)
      else if a = stackAddr (s.sp - 1) then lo (s.pc + 1)
      else if a = stackAddr (s.sp - 2) then s.pushedStatus
      else s.read a := by
  have h10 := stackAddr_sub_one_ne s.sp
  have h21 : stackAddr (s.sp - 2) ≠ stackAddr (s.sp - 1) := sub_one_one s.sp ▸ stackAddr_sub_one_ne (s.sp - 1)
  have h20 : stackAddr (s.sp - 2) ≠ stackAddr s.sp := by
    rw [ne_eq, stackAddr_inj]
    bv_omega
  rw [takeTrap_read, sub_one_one]
  by_cases h0 : a = stackAddr s.sp
  · simp only [h0, h10.symm, h20.symm, if_true, if_false]
  by_cases h1 : a = stackAddr (s.sp - 1)
  · simp only [h1, h10, h21.symm, if_true, if_false]
  simp only [h0, h1, if_false]

/-- Settles O50: the trap entry on the advanced state, which is one byte past the opcode. -/
theorem brkTakesTheTrap : Obligations.BrkTakesTheTrap := by
  refine ⟨rfl, fun s => ⟨_, exec_brk s, ?_, fun a => ?_⟩⟩
  · rw [takeTrap_eq, ← sub_one_one_one]
    rfl
  · simp only [ofNat_stackAddr, ← pushedStatus_eq]
    rw [← brk_return_address]
    exact takeTrap_read_downwards (s.advance 1) a

/-- RTI is the trap return on the advanced state (R183). -/
theorem exec_rti (s : State) :
    exec .rti s = .next { s.setP (s.read (stackAddr (s.sp + 1))) with
      pc := fromBytes (s.read (stackAddr (s.sp + 3))) (s.read (stackAddr (s.sp + 2)))
      sp := s.sp + 3, stall := 5 } := by
  rw [← add_one_one, ← add_one_one_one]
  rfl

theorem ofNat_fromBytes (h l : Byte) : BitVec.ofNat 16 (h.toNat * 256 + l.toNat) = fromBytes h l := by
  rw [← fromBytes_toNat, BitVec.ofNat_toNat, BitVec.setWidth_eq]

/-- Settles O51: the pulled status and the pulled address, by its bytes as numbers. -/
theorem rtiRestoresFlagsAndPC : Obligations.RtiRestoresFlagsAndPC := by
  refine ⟨rfl, fun s => ?_⟩
  simp only [ofNat_stackAddr, ofNat_fromBytes]
  exact exec_rti s

/-! ### The flag instructions -/

/-- Settles O48: each is its handler, one field update, on the advanced state. -/
theorem flagInstructionsWriteOneFlag : Obligations.FlagInstructionsWriteOneFlag :=
  ⟨rfl, rfl, rfl, rfl, rfl, rfl, rfl, fun s =>
    ⟨implied_two_cycles (h := doClc) (fun _ _ => rfl) s, implied_two_cycles (h := doSec) (fun _ _ => rfl) s,
      implied_two_cycles (h := doCli) (fun _ _ => rfl) s, implied_two_cycles (h := doSei) (fun _ _ => rfl) s,
      implied_two_cycles (h := doCld) (fun _ _ => rfl) s, implied_two_cycles (h := doSed) (fun _ _ => rfl) s,
      implied_two_cycles (h := doClv) (fun _ _ => rfl) s⟩⟩

/-! ### NOP -/

/-- `i` does in `s` what NOP does (R181). -/
def OnlyAdvances (i : Instr) (s : State) : Prop :=
  exec i s = .next { s with pc := s.pc + 1, stall := 1 }

theorem OnlyAdvances.next_eq {i : Instr} {s t : State} (h : OnlyAdvances i s) (hexec : exec i s = .next t) :
    t = { s with pc := s.pc + 1, stall := 1 } :=
  Host.Outcome.next.inj (hexec.symm.trans h)

/-- It is a row of 2 cycles, since no row takes fewer (R74). -/
theorem OnlyAdvances.cycles_eq_two {i : Instr} {s : State} (h : OnlyAdvances i s) : i.timing.cycles = 2 := by
  obtain ⟨t, hexec, hstall⟩ := exec_stall i s
  obtain ⟨hlow, -⟩ := cost_of_instr i
  have hone : t.stall = 1 := congrArg State.stall (h.next_eq hexec)
  omega

/-- A branch that is not taken is one byte too far, one that is taken waits too long (R149). -/
theorem not_onlyAdvances_of_branch {i : Instr} {s : State} {off : Byte}
    (hexec : exec i s = branch { cycles := 2, branchSensitive := true } (i.mnemonic.takesBranch s) off s) :
    ¬ OnlyAdvances i s := by
  intro h
  have hnext := h.next_eq (hexec.trans (branch_next ..))
  cases htaken : i.mnemonic.takesBranch s with
  | false =>
    rw [htaken] at hnext
    have hpc : s.pc + 2 = s.pc + 1 := congrArg State.pc hnext
    simp at hpc
  | true =>
    rw [htaken] at hnext
    have hstall := congrArg State.stall hnext
    simp [Timing.extra] at hstall

/-- A state that no `setZN` leaves: both `Z` and `N` set. -/
def zeroAndNegative : State := { State.reset with z := true, n := true }

/-- A handler that ends in `setZN` clears `Z` or `N`, since 0x00 is not negative (R97). -/
theorem not_onlyAdvances_of_setZN {i : Instr} {t : State} {r : Byte} (hexec : exec i zeroAndNegative = .next t)
    (hz : t.z = (r == 0x00)) (hn : t.n = r.msb) : ¬ OnlyAdvances i zeroAndNegative := by
  intro h
  rw [h.next_eq hexec] at hz hn
  obtain rfl : r = 0x00 := beq_iff_eq.mp hz.symm
  exact absurd hn (by decide)

/-- A state that each of `TXS` and the clearing flag instructions changes. -/
def indexAndFlagsSet : State :=
  { State.reset with x := 1, c := true, i := true, d := true, v := true }

theorem eq_nop_of_onlyAdvances {i : Instr} (h : ∀ s, OnlyAdvances i s) : i = .nop := by
  cases i
  case nop => rfl
  -- rows of 2 cycles that call `setZN`
  case ldaImm | ldxImm | ldyImm | adcImm | sbcImm | cmpImm | cpxImm | cpyImm | andImm | oraImm | eorImm | tax | tay |
      tsx | txa | tya | inx | iny | dex | dey | aslAcc | lsrAcc | rolAcc | rorAcc =>
    exact absurd (h _) (not_onlyAdvances_of_setZN rfl rfl rfl)
  -- the other register and flag instructions of 2 cycles
  case txs => exact absurd (congrArg State.sp ((h indexAndFlagsSet).next_eq rfl)) (by decide)
  case clc => exact absurd (congrArg State.c ((h indexAndFlagsSet).next_eq rfl)) (by decide)
  case sec => exact absurd (congrArg State.c ((h State.reset).next_eq rfl)) (by decide)
  case cli => exact absurd (congrArg State.i ((h indexAndFlagsSet).next_eq rfl)) (by decide)
  case sei => exact absurd (congrArg State.i ((h State.reset).next_eq rfl)) (by decide)
  case cld => exact absurd (congrArg State.d ((h indexAndFlagsSet).next_eq rfl)) (by decide)
  case sed => exact absurd (congrArg State.d ((h State.reset).next_eq rfl)) (by decide)
  case clv => exact absurd (congrArg State.v ((h indexAndFlagsSet).next_eq rfl)) (by decide)
  case bcc off | bcs off | beq off | bmi off | bne off | bpl off | bvc off | bvs off =>
    exact absurd (h State.reset) (not_onlyAdvances_of_branch (off := off) rfl)
  -- rows of more than 2 cycles
  all_goals exact absurd (h State.reset).cycles_eq_two nofun

/-- Settles O49: NOP's handler is the identity, and every other row has a state in which it does something else. -/
theorem nopDoesNothing : Obligations.NopDoesNothing :=
  ⟨rfl, implied_two_cycles (h := doNop) (fun _ _ => rfl), fun _ => eq_nop_of_onlyAdvances⟩

end Sys2Proof.Proofs
end

section
/-!
PROOFS. Exceptions (60_exceptions.md R200, R215, R216). No handler faults, so a tick and an `execute` answer a next state
unless the opcode they are given is undefined.
-/

namespace Sys2Proof.Proofs

open Sys2Proof.Machine Sys2Proof.Laws

/-- Settles O21: every transition ends in the stall load of R74, which answers a next state. -/
theorem everyInstructionCompletes : Obligations.EveryInstructionCompletes := by
  intro i s
  obtain ⟨t, hexec, -⟩ := exec_stall i s
  exact ⟨t, hexec⟩

/-- The Operation of a defined opcode decodes, whatever its operand bytes hold. -/
theorem operation_instr_eq_none_iff (o : Operation) : o.instr = none ↔ decodeRecord o.opcode = none :=
  instrOf_eq_none_iff o.opcode o.b1 o.b2

theorem exists_instr_of_defined {o : Operation} (ho : decodeRecord o.opcode ≠ none) : ∃ i, o.instr = some i :=
  Option.ne_none_iff_exists'.mp (mt (operation_instr_eq_none_iff o).mp ho)

theorem fetch_of_defined {s : State} (hd : decodeRecord (s.read s.pc) ≠ none) :
    ∃ o, fetch s = some o ∧ o.opcode = s.read s.pc := by
  obtain ⟨d, hd⟩ := Option.ne_none_iff_exists'.mp hd
  simp [fetch, hd]

theorem readyTransition_of_defined {s : State} (hd : decodeRecord (s.read s.pc) ≠ none) :
    ∃ t, readyTransition s = .next t := by
  obtain ⟨o, hfetch, hopcode⟩ := fetch_of_defined hd
  obtain ⟨i, hinstr⟩ := exists_instr_of_defined (hopcode ▸ hd)
  obtain ⟨t, hexec⟩ := everyInstructionCompletes i s
  exact ⟨t, by simp only [readyTransition, hfetch, Option.bind_some, hinstr, hexec]⟩

/-- A tick that is not a Ready tick on an undefined opcode completes (R75). -/
theorem step_completes {s : State} (h : ¬ (s.stall = 0 ∧ decodeRecord (s.read s.pc) = none)) :
    ∃ t, step s = .next t := by
  by_cases hs : s.stall = 0
  · rw [step_ready hs]
    exact readyTransition_of_defined fun hd => h ⟨hs, hd⟩
  · exact ⟨_, step_stalled (Nat.pos_of_ne_zero hs)⟩

theorem execute_of_undefined {o : Operation} (ho : decodeRecord o.opcode = none) (s : State) :
    execute o s = .fault (.unknownOpcode s.pc o.opcode) :=
  (executeIsTheTransitionWithoutPacing o s).2 ((operation_instr_eq_none_iff o).mpr ho)

theorem execute_completes {o : Operation} (ho : decodeRecord o.opcode ≠ none) (s : State) :
    ∃ t, execute o s = .next t := by
  obtain ⟨i, hinstr⟩ := exists_instr_of_defined ho
  obtain ⟨t, hexec⟩ := everyInstructionCompletes i s
  exact ⟨_, execute_of_exec hinstr hexec⟩

/-- What faults with `e` under a condition and completes otherwise faults under that condition only, with `e` only. -/
theorem eq_fault_iff {r : Result} {p : Prop} {e : Fault} (hfault : p → r = .fault e) (hnext : ¬ p → ∃ t, r = .next t)
    (f : Fault) : r = .fault f ↔ p ∧ f = e := by
  by_cases hp : p
  · simp [hfault hp, hp, eq_comm]
  · obtain ⟨t, ht⟩ := hnext hp
    simp [ht, hp]

/-- Settles O20: a tick and an `execute` fault on an undefined opcode and complete on any other. -/
theorem unknownOpcodeIsTheOnlyFault : Obligations.UnknownOpcodeIsTheOnlyFault := by
  refine ⟨fun s f => ?_, fun s r hr => ?_, fun o s => eq_fault_iff (execute_of_undefined · s) (execute_completes · s)⟩
  · rw [← and_assoc]
    exact eq_fault_iff (fun h => step_of_undefined h.1 h.2) step_completes f
  · by_cases h : s.stall = 0 ∧ decodeRecord (s.read s.pc) = none
    · cases (step_of_undefined h.1 h.2).symm.trans hr
    · obtain ⟨t, ht⟩ := step_completes h
      cases ht.symm.trans hr

end Sys2Proof.Proofs
end

section
/-!
PROOFS. Reset as a launch, and what a launch leaves of the host's parameters (70_reset_and_hazards.md R220, R222).
-/

namespace Sys2Proof.Proofs

open Sys2Proof.Machine

/-- The power-on state is the launch with every parameter at the default R29 names. -/
theorem reset_eq_launch : State.reset = State.launch {} := rfl

/-- No image is seeded at reset, so every address is one never written (R33). -/
theorem reset_read (a : Addr) : State.reset.read a = 0x00 := by
  obtain ⟨-, hread⟩ := launchStateIsTheParameters {}
  rw [reset_eq_launch, hread]
  rfl

/-- The image goes into memory only: no launch takes a register or flag from it (R222). -/
theorem launch_pc_sp_i (p : LaunchParams) :
    (State.launch p).pc = p.initPC ∧ (State.launch p).sp = p.initSP ∧ (State.launch p).i = p.initI := by
  obtain ⟨⟨m, hlaunch⟩, -⟩ := launchStateIsTheParameters p
  simp [hlaunch]

/-- Settles O14: reset is a launch, so its zeros and the host's `PC`, `SP` and `I` are read off what every launch
leaves. -/
theorem resetIsReadyAndReadsZero : Obligations.ResetIsReadyAndReadsZero :=
  ⟨reset_eq_launch, rfl, reset_read, launch_pc_sp_i⟩

end Sys2Proof.Proofs
end

section
/-!
PROOFS. Encoder and decoder (30_encoding.md): the round trips in both directions, the opcode table against the matrix of
R55, the two-layer cost (R60), and the example words of R63. A matrix cell keeps the operand bytes it is given; with that,
an instruction and the bytes the decoder consumed determine each other.
-/

namespace Sys2Proof.Proofs

open Sys2Proof.Machine Sys2Proof.Laws

/-! ### The operand bytes of a decoded instruction -/

/-- The operand bytes an instruction of `size` bytes takes from the two that follow its opcode (R50). -/
def takenBytes (size : Nat) (b1 b2 : Byte) : List Byte :=
  match size with
  | 0 | 1 => []
  | 2 => [b1]
  | _ + 3 => [lo (fromBytes b2 b1), hi (fromBytes b2 b1)]

theorem takenBytes_eq_take (size : Nat) (b1 b2 : Byte) : takenBytes size b1 b2 = [b1, b2].take (size - 1) := by
  match size with
  | 0 | 1 | 2 => rfl
  | _ + 3 => simp [takenBytes]

theorem decodeRecord_of_instrOf {op b1 b2 : Byte} {i : Instr} (h : instrOf op b1 b2 = some i) :
    decodeRecord op = some ⟨op, i.mnemonic, i.operand.mode, i.timing⟩ := by
  rw [← opcode_of_instrOf h]
  exact record_of_instr i

/-- The matrix cell of every opcode keeps the operand bytes its size calls for (R53, R55). -/
theorem map_operand_bytes_instrOf (i : Instr) (b1 b2 : Byte) :
    (instrOf i.opcode b1 b2).map (fun j => j.operand.bytes) = some (takenBytes i.size b1 b2) := by
  cases i <;> simp only [Instr.opcode] <;> rfl

theorem operand_bytes_of_instrOf {op b1 b2 : Byte} {i : Instr} (h : instrOf op b1 b2 = some i) :
    i.operand.bytes = [b1, b2].take (i.size - 1) := by
  obtain rfl := opcode_of_instrOf h
  have hcell := map_operand_bytes_instrOf i b1 b2
  rw [h] at hcell
  exact (Option.some.inj hcell).trans (takenBytes_eq_take ..)

/-! ### The round trips -/

/-- The cell of a defined opcode holds an instruction of the size its row calls for, whatever the operand bytes are. -/
theorem exists_instrOf_of_record {op : Byte} {d : OpRecord} (hd : decodeRecord op = some d) (b1 b2 : Byte) :
    ∃ i, instrOf op b1 b2 = some i ∧ i.size = d.mode.size := by
  obtain ⟨i, hi⟩ := Option.ne_none_iff_exists'.mp (mt (instrOf_eq_none_iff op b1 b2).mp (by simp [hd]))
  cases hd.symm.trans (decodeRecord_of_instrOf hi)
  exact ⟨i, hi, rfl⟩

/-- The decoder on a defined opcode followed by as many bytes as its size calls for. -/
theorem decode_of_bytes {op : Byte} {d : OpRecord} {i : Instr} {bs rest : List Byte} (hd : decodeRecord op = some d)
    (hlength : bs.length + 1 = d.mode.size) (hi : instrOf op (bs.getD 0 0x00) (bs.getD 1 0x00) = some i) :
    decode (op :: (bs ++ rest)) = .ok (i, rest) := by
  have hsize : d.mode.size ≤ 3 := by cases d.mode <;> decide
  match bs with
  | [] =>
    replace hi : instrOf op 0#8 0#8 = some i := hi
    simp [decode, hd, ← hlength, hi]
  | [b1] =>
    replace hi : instrOf op b1 0#8 = some i := hi
    simp [decode, hd, ← hlength, hi]
  | [b1, b2] =>
    replace hi : instrOf op b1 b2 = some i := hi
    simp [decode, hd, ← hlength, hi]
  | _ :: _ :: _ :: _ =>
    simp only [List.length_cons] at hlength
    omega

/-- Settles O1: the encoding has the opcode of the instruction's own row and as many operand bytes as the row's size calls
for, from which the matrix gives the instruction back. -/
theorem decodeOfEncodeIsTheInstruction : Obligations.DecodeOfEncodeIsTheInstruction :=
  fun i _ => decode_of_bytes (record_of_instr i) (operand_bytes_length i) (instr_toOperation i)

/-- What the decoder answers is the matrix cell of the opcode, with the two bytes after it, of which the size tells how
many were consumed. -/
theorem decode_ok_cases {bytes rest : List Byte} {i : Instr} (h : decode bytes = .ok (i, rest)) :
    ∃ op b1 b2, instrOf op b1 b2 = some i ∧ bytes = op :: ([b1, b2].take (i.size - 1) ++ rest) := by
  match bytes with
  | [] => cases h
  | op :: tail =>
    simp only [decode] at h
    split at h
    case h_1 => cases h
    case h_2 d hd =>
      split at h
      case h_1 | h_2 | h_3 =>
        rename_i hsize
        split at h
        case h_1 hi =>
          cases h
          cases hd.symm.trans (decodeRecord_of_instrOf hi)
          exact ⟨op, _, _, hi, by rw [Instr.size, hsize]; rfl⟩
        case h_2 => cases h
      case h_4 => cases h

/-- Settles O2: the opcode and the consumed bytes are those of the instruction in their matrix cell. -/
theorem encodeOfDecodeIsTheBytes : Obligations.EncodeOfDecodeIsTheBytes := by
  intro bytes rest i h
  obtain ⟨op, b1, b2, hi, rfl⟩ := decode_ok_cases h
  rw [encode, opcode_of_instrOf hi, operand_bytes_of_instrOf hi, List.cons_append]

/-! ### Table and decoder -/

/-- Settles O4: an opcode without a row has no cell, and the instruction in a cell has the row of its own opcode. -/
theorem tableAndDecoderAgree : Obligations.TableAndDecoderAgree := by
  refine ⟨rfl, by decide +kernel, by decide +kernel, fun op b1 b2 => ?_⟩
  cases hi : instrOf op b1 b2 with
  | none => simp [(instrOf_eq_none_iff op b1 b2).mp hi]
  | some i => simp [decodeRecord_of_instrOf hi, opcode_of_instrOf hi]

/-! ### The two-layer cost -/

theorem timingOf_of_mem_opcodeTable : ∀ r ∈ opcodeTable, timingOf r.mnemonic r.mode = r.timing := by
  decide +kernel

/-- Settles O6: the two layers are run on each of the 151 rows. -/
theorem twoLayerCostGivesTheTable : Obligations.TwoLayerCostGivesTheTable :=
  ⟨timingOf_of_mem_opcodeTable, rfl⟩

/-! ### The example words -/

/-- The decoder on exactly the bytes of one instruction. -/
theorem decode_encode (i : Instr) : decode (encode i) = .ok (i, []) := by
  simpa using decodeOfEncodeIsTheInstruction i []

/-- Settles O9: each word is the encoding of its instruction. -/
theorem knownWordsDecode : Obligations.KnownWordsDecode :=
  ⟨decode_encode .clc, decode_encode .aslAcc, decode_encode (.ldaImm 0x10), decode_encode (.ldaZp 0x10),
    decode_encode (.ldaZpx 0x10), decode_encode (.ldxZpy 0x10), decode_encode (.ldaAbs 0x1234),
    decode_encode (.ldaAbx 0x1234), decode_encode (.ldaAby 0x1234), decode_encode (.jmpInd 0x1234),
    decode_encode (.ldaIzx 0x10), decode_encode (.ldaIzy 0x10), decode_encode (.bne 0x0E), decode_encode (.adcAbs 0x1234),
    decode_encode (.adcIzx 0xB4), decode_encode (.adcIzy 0xB4)⟩

end Sys2Proof.Proofs
end

section
/-!
PROOFS. The Bus accesses explain memory (20_memory.md R42, R48): replaying them gives the memory an instruction leaves, and
each read is what the Bus answers. Which bytes an instruction can change (R32; 40_engine_and_addressing.md R95), and that
memory stays canonical, are read off the writes in the list.
-/

namespace Sys2Proof.Proofs

open Sys2Proof.Machine Sys2Proof.Laws

/-! ### Explaining a memory -/

/-- Replaying `body` on the memory of `s` gives that of `t`, and each of its reads is what the Bus answers there (R42). -/
def Explains (body : List Access) (s t : State) : Prop :=
  body.foldl Access.apply s.mem = t.mem ∧ Access.consistent s.mem body = true

theorem explains_nil_iff (s t : State) : Explains [] s t ↔ t.mem = s.mem := by
  simp [Explains, Access.consistent, eq_comm]

theorem explains_rd_cons_iff (s t : State) (a : Addr) (w : Byte) (body : List Access) :
    Explains (.rd a w :: body) s t ↔ s.read a = w ∧ Explains body s t := by
  simp only [Explains, List.foldl_cons, Access.apply, Access.consistent, Bool.and_eq_true, beq_iff_eq, State.read]
  exact and_left_comm

theorem explains_rdAt_cons_iff (s t : State) (a : Addr) (body : List Access) :
    Explains (s.rdAt a :: body) s t ↔ Explains body s t :=
  (explains_rd_cons_iff ..).trans (and_iff_right rfl)

theorem explains_wr_cons_iff (s t : State) (a : Addr) (w : Byte) (body : List Access) :
    Explains (.wr a w :: body) s t ↔ Explains body (s.write a w) t :=
  Iff.rfl

theorem explains_pointerReads_iff (o : Operand) (s t : State) (body : List Access) :
    Explains (pointerReads o s ++ body) s t ↔ Explains body s t := by
  unfold pointerReads
  split <;> simp only [List.cons_append, List.nil_append, explains_rdAt_cons_iff]

/-- The fetch and the pointer reads explain nothing: an access list explains what its body does. -/
theorem Makes.explains {i : Instr} {s t : State} {body : List Access} (hi : Makes i s body) (h : Explains body s t) :
    Explains (i.accesses s) s t := by
  rw [hi, List.append_assoc, Explains, fetchAccesses_apply, fetchAccesses_consistent]
  exact (explains_pointerReads_iff ..).mpr h

/-! ### The bodies of R95 -/

theorem explains_read {s t : State} (a : Addr) (h : t.mem = s.mem) : Explains [s.rdAt a] s t :=
  (explains_rdAt_cons_iff ..).mpr ((explains_nil_iff ..).mpr h)

theorem explains_store {s t : State} {a : Addr} {w : Byte} (h : t.mem = (s.write a w).mem) : Explains [.wr a w] s t :=
  (explains_wr_cons_iff ..).mpr ((explains_nil_iff ..).mpr h)

theorem explains_rewrite {s t : State} {a : Addr} {w : Byte} (h : t.mem = (s.write a w).mem) :
    Explains [s.rdAt a, .wr a w] s t :=
  (explains_rdAt_cons_iff ..).mpr (explains_store h)

theorem explains_push16 {s t : State} {a : Addr} (h : t.mem = (s.push16 a).mem) :
    Explains [.wr (stackAddr s.sp) (hi a), .wr (stackAddr (s.sp - 1)) (lo a)] s t :=
  (explains_wr_cons_iff ..).mpr (explains_store h)

/-- BRK reads its vector after the pushes, which cannot reach it (45_stack_flag_system.md R182). -/
theorem explains_takeTrap {s t : State} (h : t.mem = s.takeTrap.mem) : Explains (Mnemonic.brk.stackAccesses s) s t := by
  have hb := pushedStatus_ignores_b s true
  have hread (a : Addr) (ha : ∀ p, stackAddr p ≠ a) : s.takeTrap.read a = s.read a := by
    rw [takeTrap_read, if_neg (ha _).symm, if_neg (ha _).symm, if_neg (ha _).symm]
  simp only [Mnemonic.stackAccesses, explains_wr_cons_iff, State.rdAt, explains_rd_cons_iff, explains_nil_iff, ← hb]
  exact ⟨hread _ fun p => (stackAddr_ne_vector p).1, hread _ fun p => (stackAddr_ne_vector p).2, h⟩

/-! ### One instruction -/

/-- The accesses of every instruction explain its memory, by its class (40_engine_and_addressing.md R95). -/
theorem exec_explained (i : Instr) (s : State) : ∃ t, exec i s = .next t ∧ Explains (i.accesses s) s t := by
  cases i
  case ldaImm b | ldxImm b | ldyImm b | adcImm b | sbcImm b | cmpImm b | cpxImm b | cpyImm b | andImm b | oraImm b |
      eorImm b =>
    exact ⟨_, rfl, (makes_nil_of_acc_or_imm (.inr ⟨b, rfl⟩) s).explains ((explains_nil_iff ..).mpr rfl)⟩
  case aslAcc | lsrAcc | rolAcc | rorAcc =>
    exact ⟨_, rfl, (makes_nil_of_acc_or_imm (.inl rfl) s).explains ((explains_nil_iff ..).mpr rfl)⟩
  case staZp | staZpx | staAbs | staAbx | staAby | staIzx | staIzy | stxZp | stxZpy | stxAbs | styZp | styZpx | styAbs =>
    exact ⟨_, rfl, (makes_operandAccesses rfl).explains (explains_store rfl)⟩
  case incZp | incZpx | incAbs | incAbx | decZp | decZpx | decAbs | decAbx | aslZp | aslZpx | aslAbs | aslAbx |
      lsrZp | lsrZpx | lsrAbs | lsrAbx | rolZp | rolZpx | rolAbs | rolAbx | rorZp | rorZpx | rorAbs | rorAbx =>
    exact ⟨_, rfl, (makes_operandAccesses rfl).explains (explains_rewrite rfl)⟩
  case jmpAbs | jmpInd =>
    exact ⟨_, rfl, (makes_operandAccesses rfl).explains ((explains_nil_iff ..).mpr rfl)⟩
  case bcc | bcs | beq | bmi | bne | bpl | bvc | bvs =>
    refine ⟨_, branch_next .., (makes_operandAccesses rfl).explains ((explains_nil_iff ..).mpr ?_)⟩
    split <;> rfl
  case jsr => exact ⟨_, rfl, (makes_operandAccesses rfl).explains (explains_push16 rfl)⟩
  case pha | php => exact ⟨_, rfl, (makes_stackAccesses rfl s).explains (explains_store rfl)⟩
  case pla | plp => exact ⟨_, rfl, (makes_stackAccesses rfl s).explains (explains_read _ rfl)⟩
  case rts =>
    exact ⟨_, rfl, (makes_rts rfl s).explains ((explains_rdAt_cons_iff ..).mpr (explains_read _ rfl))⟩
  case rti =>
    exact ⟨_, rfl, (makes_rti rfl s).explains
      ((explains_rdAt_cons_iff ..).mpr ((explains_rdAt_cons_iff ..).mpr (explains_read _ rfl)))⟩
  case brk => exact ⟨_, rfl, (makes_stackAccesses rfl s).explains (explains_takeTrap rfl)⟩
  case tax | tay | tsx | txa | txs | tya | inx | iny | dex | dey | clc | sec | cli | sei | cld | sed | clv | nop =>
    exact ⟨_, rfl, (makes_nil_of_register (by decide) s).explains ((explains_nil_iff ..).mpr rfl)⟩
  -- class read with a memory operand
  all_goals exact ⟨_, rfl, (makes_operandAccesses rfl).explains (explains_read _ rfl)⟩

/-- Settles O27: the body of each class explains what its handler does to memory, the fetch and the pointer reads do
nothing. -/
theorem busAccessesExplainMemory : Obligations.BusAccessesExplainMemory :=
  exec_explained

/-! ### What the listed writes leave alone -/

theorem foldl_apply_eq_self {l : List Access} (m : Memory) (h : ∀ a w, .wr a w ∉ l) : l.foldl Access.apply m = m := by
  induction l generalizing m with
  | nil => rfl
  | cons x l ih =>
    cases x with
    | rd => exact ih m fun a w hw => h a w (List.mem_cons_of_mem _ hw)
    | wr a w => exact absurd List.mem_cons_self (h a w)

/-- A byte that no listed write addresses reads as before (R32). -/
theorem readKey_foldl_apply {l : List Access} (m : Memory) {a : Addr} (h : ∀ w, .wr a w ∉ l) :
    (l.foldl Access.apply m).readKey a.toNat = m.readKey a.toNat := by
  induction l generalizing m with
  | nil => rfl
  | cons x l ih =>
    have htail (m : Memory) := ih m fun w hw => h w (List.mem_cons_of_mem _ hw)
    cases x with
    | rd => exact htail m
    | wr b w =>
      have hne : a.toNat ≠ b.toNat := fun e => h w (by rw [BitVec.eq_of_toNat_eq e]; exact List.mem_cons_self)
      rw [List.foldl_cons, htail, Access.apply, readKey_writeKey, if_neg hne]

theorem foldl_apply_wf (l : List Access) {m : Memory} (hm : Memory.wf m) : Memory.wf (l.foldl Access.apply m) := by
  induction l generalizing m with
  | nil => exact hm
  | cons x l ih =>
    cases x with
    | rd => exact ih hm
    | wr a w => exact ih (writeKey_wf hm a.isLt w)

theorem Explains.mem_eq {l : List Access} {s t : State} (h : Explains l s t) (hl : ∀ a w, .wr a w ∉ l) :
    t.mem = s.mem :=
  h.1.symm.trans (foldl_apply_eq_self s.mem hl)

theorem Explains.read_eq {l : List Access} {s t : State} (h : Explains l s t) {a : Addr} (hl : ∀ w, .wr a w ∉ l) :
    t.read a = s.read a := by
  rw [State.read, ← h.1]
  exact readKey_foldl_apply s.mem hl

theorem Explains.wf {l : List Access} {s t : State} (h : Explains l s t) (hs : Memory.wf s.mem) : Memory.wf t.mem :=
  h.1 ▸ foldl_apply_wf l hs

/-! ### Which addresses an instruction writes -/

/-- The mnemonics that write at their resolved address. -/
abbrev locationWriters : List Mnemonic := [.sta, .stx, .sty, .asl, .lsr, .rol, .ror, .inc, .dec]

/-- The mnemonics that push. -/
abbrev pushMnemonics : List Mnemonic := [.pha, .php, .jsr, .brk]

theorem wr_mem_operandAccesses {m : Mnemonic} {a b : Addr} {w : Byte} {s : State} (h : .wr b w ∈ m.operandAccesses a s) :
    (m ∈ locationWriters ∧ b = a) ∨ (m = .jsr ∧ ∃ p, b = stackAddr p) := by
  cases m <;> simp only [Mnemonic.operandAccesses, State.rdAt, List.mem_cons, List.not_mem_nil, reduceCtorEq, or_false,
    false_or, Access.wr.injEq] at h
  case jsr => exact .inr ⟨rfl, h.elim (fun h => ⟨_, h.1⟩) fun h => ⟨_, h.1⟩⟩
  all_goals exact .inl ⟨by simp, h.1⟩

theorem wr_mem_stackAccesses {m : Mnemonic} {b : Addr} {w : Byte} {s : State} (h : .wr b w ∈ m.stackAccesses s) :
    m ∈ pushMnemonics ∧ ∃ p, b = stackAddr p := by
  cases m <;> simp only [Mnemonic.stackAccesses, State.rdAt, List.mem_cons, List.not_mem_nil, reduceCtorEq, or_false,
    Access.wr.injEq] at h
  case brk => exact ⟨by simp, h.elim (fun h => ⟨_, h.1⟩) (·.elim (fun h => ⟨_, h.1⟩) fun h => ⟨_, h.1⟩)⟩
  all_goals exact ⟨by simp, _, h.1⟩

theorem not_wr_mem_pointerReads {o : Operand} {b : Addr} {w : Byte} {s : State} : .wr b w ∉ pointerReads o s := by
  unfold pointerReads
  split <;> simp [State.rdAt]

/-- The fetch and the pointer reads write nothing. -/
theorem Makes.wr_mem {i : Instr} {s : State} {body : List Access} (hi : Makes i s body) {b : Addr} {w : Byte}
    (h : .wr b w ∈ i.accesses s) : .wr b w ∈ body := by
  rw [hi, List.mem_append, List.mem_append] at h
  obtain (h | h) | h := h
  · simp [fetchAccesses, State.rdAt] at h
  · exact absurd h not_wr_mem_pointerReads
  · exact h

/-- Where an instruction writes: at its resolved address, or, if it is one of the four that push, in the stack page. -/
theorem wr_mem_accesses {i : Instr} {s : State} {b : Addr} {w : Byte} (h : .wr b w ∈ i.accesses s) :
    (i.mnemonic ∈ locationWriters ∧ ∃ loc, i.location s = some loc ∧ b = loc.addr) ∨
      (i.mnemonic ∈ pushMnemonics ∧ (i.mnemonic = .jsr ∨ i.location s = none) ∧ ∃ p, b = stackAddr p) := by
  match hop : i.operand with
  | .imp =>
    obtain ⟨hm, hp⟩ := wr_mem_stackAccesses ((makes_stackAccesses hop s).wr_mem h)
    exact .inr ⟨hm, .inr (by rw [Instr.location, hop]), hp⟩
  | .acc => cases (makes_nil_of_acc_or_imm (.inl hop) s).wr_mem h
  | .imm v => cases (makes_nil_of_acc_or_imm (.inr ⟨v, hop⟩) s).wr_mem h
  | .mem m =>
    have hloc := location_of_mem hop s
    obtain ⟨hm, hb⟩ | ⟨hm, hp⟩ := wr_mem_operandAccesses ((makes_operandAccesses hloc).wr_mem h)
    · exact .inl ⟨hm, _, hloc, hb⟩
    · exact .inr ⟨by simp [hm], .inl hm, hp⟩

/-- Settles O55: a byte that changes is the target of a listed write. -/
theorem onlyWritingInstructionsChangeMemory : Obligations.OnlyWritingInstructionsChangeMemory := by
  intro i s
  obtain ⟨t, hexec, hexplains⟩ := exec_explained i s
  refine ⟨t, hexec, fun hi => hexplains.mem_eq fun b w hw => ?_, fun hop => hexplains.mem_eq fun b w hw => ?_,
    fun loc a hi hloc ha => hexplains.read_eq fun w hw => ?_, fun a hi ha => hexplains.read_eq fun w hw => ?_⟩
  · obtain ⟨hm, -⟩ | ⟨hm, -⟩ := wr_mem_accesses hw
    · exact hi (List.mem_append_left pushMnemonics hm)
    · exact hi (List.mem_append_right locationWriters hm)
  · cases (makes_nil_of_acc_or_imm (.inl hop) s).wr_mem hw
  · obtain ⟨-, loc', hloc', rfl⟩ | ⟨-, hm | hnone, -⟩ := wr_mem_accesses hw
    · cases hloc.symm.trans hloc'
      exact ha rfl
    · exact hi (by simp [hm])
    · cases hloc.symm.trans hnone
  · obtain ⟨hm, -⟩ | ⟨-, -, p, rfl⟩ := wr_mem_accesses hw
    · exact (by decide : ∀ m ∈ locationWriters, m ∉ pushMnemonics) _ hm hi
    · have := stackAddr_toNat p
      have := p.isLt
      omega

end Sys2Proof.Proofs
end

section
/-!
PROOFS. The invariant (10_state.md R25; the canonical memory list is the model's own, log entry 3): canonical memories are
equal data, reset and every launch meet the invariant, and every step keeps it.
-/

namespace Sys2Proof.Proofs

open Sys2Proof.Machine Sys2Proof.Laws

/-- Settles O12: every key of a canonical list is an address, so equal reads by address are equal reads by key. -/
theorem canonicalMemoriesAreEqualData : Obligations.CanonicalMemoriesAreEqualData := by
  refine fun s t hs ht h => eq_of_readKey_eq hs ht fun a ha => ?_
  have haddr : (BitVec.ofNat 16 a).toNat = a := Nat.mod_eq_of_lt ha
  have := h (BitVec.ofNat 16 a)
  rwa [State.read, State.read, haddr] at this

/-- Settles O15: reset is Ready and lists no byte. -/
theorem resetMeetsTheInvariant : Obligations.ResetMeetsTheInvariant :=
  ⟨Nat.zero_le _, reset_mem_wf⟩

theorem seed_wf {m : Memory} (hm : Memory.wf m) (image : List (Addr × Byte)) : Memory.wf (m.seed image) := by
  induction image generalizing m with
  | nil => exact hm
  | cons cell image ih => exact ih (writeKey_wf hm cell.1.isLt cell.2)

/-- Settles O16: a launch is Ready and seeds reset's memory. -/
theorem everyLaunchMeetsTheInvariant : Obligations.EveryLaunchMeetsTheInvariant :=
  fun p => ⟨Nat.zero_le _, seed_wf reset_mem_wf p.image⟩

theorem exec_keeps_wf {i : Instr} {s t : State} (h : exec i s = .next t) (hs : Memory.wf s.mem) : Memory.wf t.mem := by
  obtain ⟨u, hu, hexplains⟩ := exec_explained i s
  cases h.symm.trans hu
  exact hexplains.wf hs

/-- No instruction costs more than 7 ticks, one of which executes it (40_engine_and_addressing.md R74). -/
theorem exec_stall_le {i : Instr} {s t : State} (h : exec i s = .next t) : t.stall ≤ Config.stallMax := by
  obtain ⟨u, hu, hstall⟩ := exec_stall_eq_ticks i s
  cases h.symm.trans hu
  rw [hstall]
  exact Nat.sub_le_sub_right (ticks_bounds i s).2 1

/-- Settles O17: a Stalled tick lowers `stall` and leaves memory alone; a Ready tick executes one instruction, which loads
at most 6 and writes bytes. -/
theorem stepKeepsTheInvariant : Obligations.StepKeepsTheInvariant := by
  intro s t ⟨hstall, hmem⟩ h
  obtain ⟨-, rfl⟩ | ⟨-, i, -, hexec⟩ := step_next_cases h
  · exact ⟨(Nat.sub_le ..).trans hstall, hmem⟩
  · exact ⟨exec_stall_le hexec, exec_keeps_wf hexec hmem⟩

end Sys2Proof.Proofs
end

section
/-!
PROOFS. An instruction looks at memory only through the reads it lists (20_memory.md R42, R48). Where another memory answers
the listed reads alike, the resolver answers alike (40_engine_and_addressing.md R83 to R92), and with it each class of R95.
-/

namespace Sys2Proof.Proofs

open Sys2Proof.Machine Sys2Proof.Laws

/-! ### The listed reads -/

/-- The state with another memory. -/
def withMemory (s : State) (m : Memory) : State := { s with mem := m }

@[simp] theorem withMemory_x (s : State) (m : Memory) : (withMemory s m).x = s.x := rfl
@[simp] theorem withMemory_y (s : State) (m : Memory) : (withMemory s m).y = s.y := rfl
@[simp] theorem withMemory_sp (s : State) (m : Memory) : (withMemory s m).sp = s.sp := rfl

/-- `s'` answers every read listed in `l` as listed. -/
def Answers (s' : State) (l : List Access) : Prop :=
  ∀ a w, Access.rd a w ∈ l → s'.read a = w

theorem Answers.read_eq {s s' : State} {l : List Access} (h : Answers s' l) {a : Addr} (ha : s.rdAt a ∈ l) :
    s'.read a = s.read a :=
  h a _ ha

theorem answers_append_iff {s' : State} {l l' : List Access} : Answers s' (l ++ l') ↔ Answers s' l ∧ Answers s' l' := by
  simp only [Answers, List.mem_append, or_imp, forall_and]

/-- An access made again in `s'`: a read takes what the Bus answers there. -/
def Access.again (s' : State) : Access → Access
  | .rd a _ => s'.rdAt a
  | .wr a w => .wr a w

theorem Answers.map_again {s' : State} {l : List Access} (h : Answers s' l) : l.map (Access.again s') = l := by
  refine (List.map_congr_left fun x hx => ?_).trans (List.map_id l)
  cases x with
  | rd a w => exact congrArg (Access.rd a) (h a w hx)
  | wr => rfl

/-! ### The same accesses -/

theorem pointerReads_withMemory {m : MemOperand} {s : State} {mem : Memory}
    (h : Answers (withMemory s mem) (m.pointerReads s)) : m.pointerReads (withMemory s mem) = m.pointerReads s := by
  have hagain : m.pointerReads (withMemory s mem) = (m.pointerReads s).map (Access.again (withMemory s mem)) := by
    cases m <;> rfl
  exact hagain.trans h.map_again

theorem stackAccesses_withMemory {m : Mnemonic} {s : State} {mem : Memory}
    (h : Answers (withMemory s mem) (m.stackAccesses s)) : m.stackAccesses (withMemory s mem) = m.stackAccesses s := by
  have hagain : m.stackAccesses (withMemory s mem) = (m.stackAccesses s).map (Access.again (withMemory s mem)) := by
    cases m <;> rfl
  exact hagain.trans h.map_again

/-- A read-modify-write writes what it makes of the byte it read (R95). -/
theorem operandAccesses_withMemory {m : Mnemonic} {a : Addr} {s : State} {mem : Memory}
    (h : Answers (withMemory s mem) (m.operandAccesses a s)) :
    m.operandAccesses a (withMemory s mem) = m.operandAccesses a s := by
  cases m
  case asl | lsr | rol | ror | inc | dec =>
    have hread := h.read_eq List.mem_cons_self
    simp only [Mnemonic.operandAccesses, State.rdAt, hread]
    rfl
  all_goals exact Eq.trans rfl h.map_again

/-- The pointer reads decide the resolved location (R89 to R91). -/
theorem resolve_withMemory {m : MemOperand} {s : State} {mem : Memory}
    (h : Answers (withMemory s mem) (m.pointerReads s)) : m.resolve (withMemory s mem) = m.resolve s := by
  cases m
  case ind | izx | izy =>
    have hlow := h.read_eq List.mem_cons_self
    have hhigh := h.read_eq (List.mem_cons_of_mem _ List.mem_cons_self)
    simp only [MemOperand.resolve, State.readIndirect, State.read16zp, withMemory_x, withMemory_y, hlow, hhigh]
  all_goals rfl

theorem atOperand_withMemory (i : Instr) (s : State) (mem : Memory) :
    i.atOperand (withMemory s mem) = withMemory (i.atOperand s) mem := rfl

/-- What the listed reads of an instruction with a memory operand tell apart: its pointer reads, and what is read at the
resolved address. -/
theorem answers_bodyAccesses_of_mem {i : Instr} {m : MemOperand} (hop : i.operand = .mem m) {s : State} {mem : Memory} :
    Answers (withMemory s mem) (i.bodyAccesses s) ↔
      Answers (withMemory (i.atOperand s) mem) (m.pointerReads (i.atOperand s)) ∧
        Answers (withMemory (i.atOperand s) mem)
          (i.mnemonic.operandAccesses (m.resolve (i.atOperand s)).addr (i.atOperand s)) := by
  simp only [Instr.bodyAccesses, hop]
  exact answers_append_iff

theorem bodyAccesses_withMemory {i : Instr} {s : State} {mem : Memory}
    (h : Answers (withMemory s mem) (i.bodyAccesses s)) : i.bodyAccesses (withMemory s mem) = i.bodyAccesses s := by
  match hop : i.operand with
  | .imp =>
    simp only [Instr.bodyAccesses, hop] at h ⊢
    exact stackAccesses_withMemory h
  | .acc | .imm _ => simp only [Instr.bodyAccesses, hop]
  | .mem m =>
    obtain ⟨hpointer, hoperand⟩ := (answers_bodyAccesses_of_mem hop).mp h
    simp only [Instr.bodyAccesses, hop, atOperand_withMemory, pointerReads_withMemory hpointer,
      resolve_withMemory hpointer, operandAccesses_withMemory hoperand]

theorem location_withMemory {i : Instr} {s : State} {mem : Memory} (h : Answers (withMemory s mem) (i.bodyAccesses s)) :
    i.location (withMemory s mem) = i.location s := by
  match hop : i.operand with
  | .imp | .acc | .imm _ => simp only [Instr.location, hop]
  | .mem m => rw [location_of_mem hop, location_of_mem hop, atOperand_withMemory,
      resolve_withMemory ((answers_bodyAccesses_of_mem hop).mp h).1]

/-- The byte read at the resolved address, by an instruction that lists its read there. -/
theorem read_location_withMemory {i : Instr} {s : State} {mem : Memory} {loc : Resolved}
    (h : Answers (withMemory s mem) (i.bodyAccesses s)) (hloc : i.location s = some loc)
    (hlisted : ∀ a u, u.rdAt a ∈ i.mnemonic.operandAccesses a u) : (withMemory s mem).read loc.addr = s.read loc.addr := by
  obtain ⟨m, hop, rfl⟩ := location_eq_some hloc
  exact ((answers_bodyAccesses_of_mem hop).mp h).2.read_eq (hlisted _ (i.atOperand s))

/-! ### The same next state -/

/-- Both answer a next state, the same but for memory. -/
def SameButMemory (r r' : Result) : Prop :=
  ∃ t mem, r = .next t ∧ r' = .next (withMemory t mem)

theorem takesBranch_withMemory (m : Mnemonic) (s : State) (mem : Memory) :
    m.takesBranch (withMemory s mem) = m.takesBranch s := by
  cases m <;> rfl

/-- The cost of an instruction depends on its resolved location and the flags (R74). -/
theorem sequential_withMemory {i : Instr} {s : State} {mem : Memory}
    (h : Answers (withMemory s mem) (i.bodyAccesses s)) :
    i.sequential (withMemory s mem) = withMemory (i.sequential s) mem := by
  simp only [Instr.sequential, Instr.ticks, Instr.crossed, Instr.targetCrosses, location_withMemory h,
    takesBranch_withMemory]
  rfl

theorem operandValue_withMemory {i : Instr} {s : State} {mem : Memory}
    (h : Answers (withMemory s mem) (i.bodyAccesses s)) (hlisted : ∀ a u, u.rdAt a ∈ i.mnemonic.operandAccesses a u) :
    i.operandValue (withMemory s mem) = i.operandValue s := by
  match hop : i.operand with
  | .imp | .imm _ => simp only [Instr.operandValue, hop]
  | .acc =>
    simp only [Instr.operandValue, hop]
    rfl
  | .mem m =>
    have hpointer := ((answers_bodyAccesses_of_mem hop).mp h).1
    simp only [Instr.operandValue, hop, atOperand_withMemory, resolve_withMemory hpointer,
      read_location_withMemory h (location_of_mem hop s) hlisted]

theorem readHandler_withMemory (m : Mnemonic) (w : Byte) (s : State) (mem : Memory) :
    readHandler m w (withMemory s mem) = withMemory (readHandler m w s) mem := by
  cases m <;> rfl

theorem modifyHandler_withMemory (m : Mnemonic) (w : Byte) (s : State) (mem : Memory) :
    modifyHandler m w (withMemory s mem) = ((modifyHandler m w s).1, withMemory (modifyHandler m w s).2 mem) := by
  cases m <;> rfl

theorem read_sameButMemory {i : Instr} {s : State} {mem : Memory} (hi : i.mnemonic ∈ readMnemonics)
    (h : Answers (withMemory s mem) (i.bodyAccesses s)) : SameButMemory (exec i s) (exec i (withMemory s mem)) := by
  obtain ⟨w, hw, hexec⟩ := exec_read rfl hi s
  obtain ⟨w', hw', hexec'⟩ := exec_read rfl hi (withMemory s mem)
  rw [operandValue_withMemory h fun a u => by rw [operandAccesses_read hi]; exact List.mem_cons_self] at hw'
  cases hw.symm.trans hw'
  rw [sequential_withMemory h, readHandler_withMemory] at hexec'
  exact ⟨_, mem, hexec, hexec'⟩

theorem store_sameButMemory {i : Instr} {s : State} {mem : Memory} (hi : i.mnemonic ∈ [.sta, .stx, .sty])
    (h : Answers (withMemory s mem) (i.bodyAccesses s)) : SameButMemory (exec i s) (exec i (withMemory s mem)) := by
  obtain ⟨-, t, -, hexec, ht, -⟩ := exec_store rfl hi s
  obtain ⟨-, t', -, hexec', ht', -⟩ := exec_store rfl hi (withMemory s mem)
  rw [sequential_withMemory h] at ht'
  refine ⟨t, t'.mem, hexec, hexec'.trans (congrArg _ ?_)⟩
  rw [ht', ht]
  rfl

theorem modify_sameButMemory {i : Instr} {s : State} {mem : Memory} (hi : i.mnemonic ∈ modifyMnemonics)
    (h : Answers (withMemory s mem) (i.bodyAccesses s)) : SameButMemory (exec i s) (exec i (withMemory s mem)) := by
  obtain ⟨hacc, hmem⟩ := exec_modify rfl hi s
  obtain ⟨hacc', hmem'⟩ := exec_modify rfl hi (withMemory s mem)
  simp only [sequential_withMemory h, modifyHandler_withMemory] at hacc' hmem'
  by_cases hop : i.operand = .acc
  · exact ⟨_, mem, hacc hop, hacc' hop⟩
  · obtain ⟨loc, t, hloc, hexec, ht, -⟩ := hmem hop
    obtain ⟨loc', t', hloc', hexec', ht', -⟩ := hmem' hop
    cases hloc.symm.trans ((location_withMemory h).symm.trans hloc')
    have hlisted (a : Addr) (u : State) : u.rdAt a ∈ i.mnemonic.operandAccesses a u := by
      revert hi
      cases i.mnemonic <;> simp [Mnemonic.operandAccesses]
    rw [read_location_withMemory h hloc hlisted] at ht'
    refine ⟨t, t'.mem, hexec, hexec'.trans (congrArg _ ?_)⟩
    rw [ht', ht]
    rfl

theorem branch_withMemory (t : Timing) (cond : Bool) (off : Byte) (s : State) (mem : Memory) :
    SameButMemory (branch t cond off s) (branch t cond off (withMemory s mem)) := by
  cases cond <;> exact ⟨_, mem, rfl, rfl⟩

/-- The other memory holds the same byte at `a`. -/
def SameByte (s : State) (mem : Memory) (a : Addr) : Prop :=
  (withMemory s mem).read a = s.read a

/-- JMP through a pointer reads its two bytes (R89). -/
theorem jmpInd_sameButMemory {p : Addr} {s : State} {mem : Memory} (hlow : SameByte s mem p)
    (hhigh : SameByte s mem (p + 1)) : SameButMemory (exec (.jmpInd p) s) (exec (.jmpInd p) (withMemory s mem)) := by
  rw [← ofNat_succ_mod] at hhigh
  refine ⟨_, mem, (jmpLoadsPC.2 s p).2, (jmpLoadsPC.2 (withMemory s mem) p).2.trans ?_⟩
  rw [hlow, hhigh]
  rfl

theorem pull_sameButMemory {i : Instr} {s : State} {mem : Memory} (hi : i ∈ [.pla, .plp])
    (hread : SameByte s mem (stackAddr (s.sp + 1))) : SameButMemory (exec i s) (exec i (withMemory s mem)) := by
  obtain ⟨hpla, hplp⟩ := pullsReadOneStackByte.2.2 s
  obtain ⟨hpla', hplp'⟩ := pullsReadOneStackByte.2.2 (withMemory s mem)
  rw [withMemory_sp, ofNat_stackAddr, hread, ← ofNat_stackAddr] at hpla' hplp'
  fin_cases hi
  · exact ⟨_, mem, hpla, hpla'⟩
  · exact ⟨_, mem, hplp, hplp'⟩

theorem rts_sameButMemory {s : State} {mem : Memory} (hlow : SameByte s mem (stackAddr (s.sp + 1)))
    (hhigh : SameByte s mem (stackAddr (s.sp + 2))) : SameButMemory (exec .rts s) (exec .rts (withMemory s mem)) := by
  refine ⟨_, mem, exec_rts s, (exec_rts (withMemory s mem)).trans ?_⟩
  rw [withMemory_sp, hlow, hhigh]
  rfl

theorem rti_sameButMemory {s : State} {mem : Memory} (hstatus : SameByte s mem (stackAddr (s.sp + 1)))
    (hlow : SameByte s mem (stackAddr (s.sp + 2))) (hhigh : SameByte s mem (stackAddr (s.sp + 3))) :
    SameButMemory (exec .rti s) (exec .rti (withMemory s mem)) := by
  refine ⟨_, mem, exec_rti s, (exec_rti (withMemory s mem)).trans ?_⟩
  rw [withMemory_sp, hstatus, hlow, hhigh]
  rfl

/-- BRK reads its vector; the bytes it pushes it does not read (R182). -/
theorem brk_sameButMemory {s : State} {mem : Memory} (hlow : SameByte s mem 0xFFFE) (hhigh : SameByte s mem 0xFFFF) :
    SameButMemory (exec .brk s) (exec .brk (withMemory s mem)) := by
  obtain ⟨t, hexec, ht, -⟩ := brkTakesTheTrap.2 s
  obtain ⟨t', hexec', ht', -⟩ := brkTakesTheTrap.2 (withMemory s mem)
  refine ⟨t, t'.mem, hexec, hexec'.trans (congrArg _ ?_)⟩
  rw [ht', ht, hlow, hhigh]
  rfl

/-- Every instruction by its class (R95): those with a location by the rules above, JMP by its pointer, the implied ones by
the bytes they pull or fetch as a vector. -/
theorem exec_sameButMemory {i : Instr} {s : State} {mem : Memory}
    (h : Answers (withMemory s mem) (i.bodyAccesses s)) : SameButMemory (exec i s) (exec i (withMemory s mem)) := by
  cases i
  case staZp | staZpx | staAbs | staAbx | staAby | staIzx | staIzy | stxZp | stxZpy | stxAbs | styZp | styZpx | styAbs =>
    exact store_sameButMemory (by simp [Instr.mnemonic]) h
  case incZp | incZpx | incAbs | incAbx | decZp | decZpx | decAbs | decAbx | aslAcc | aslZp | aslZpx | aslAbs | aslAbx |
      lsrAcc | lsrZp | lsrZpx | lsrAbs | lsrAbx | rolAcc | rolZp | rolZpx | rolAbs | rolAbx | rorAcc | rorZp | rorZpx |
      rorAbs | rorAbx =>
    exact modify_sameButMemory (by simp [Instr.mnemonic]) h
  case bcc | bcs | beq | bmi | bne | bpl | bvc | bvs => exact branch_withMemory ..
  case jmpInd => exact jmpInd_sameButMemory (h.read_eq (.head _)) (h.read_eq (.tail _ (.head _)))
  case pla | plp => exact pull_sameButMemory (by simp) (h.read_eq (.head _))
  case rts =>
    exact rts_sameButMemory (h.read_eq (.head _)) (add_one_one s.sp ▸ h.read_eq (.tail _ (.head _)))
  case rti =>
    exact rti_sameButMemory (h.read_eq (.head _)) (add_one_one s.sp ▸ h.read_eq (.tail _ (.head _)))
      (add_one_one_one s.sp ▸ h.read_eq (.tail _ (.tail _ (.head _))))
  case brk =>
    exact brk_sameButMemory (h.read_eq (.tail _ (.tail _ (.tail _ (.head _)))))
      (h.read_eq (.tail _ (.tail _ (.tail _ (.tail _ (.head _))))))
  case jmpAbs | jsr | pha | php | tax | tay | tsx | txa | txs | tya | inx | iny | dex | dey | clc | sec | cli | sei |
      cld | sed | clv | nop =>
    exact ⟨_, _, rfl, rfl⟩
  -- class read
  all_goals exact read_sameButMemory (by simp [Instr.mnemonic]) h

/-- Settles O29: the listed reads decide the resolved location and every byte the handler takes from memory. -/
theorem anInstructionSeesOnlyTheBytesItReads : Obligations.AnInstructionSeesOnlyTheBytesItReads := by
  intro i s s' hs h
  obtain ⟨mem, rfl⟩ : ∃ mem, s' = withMemory s mem := ⟨_, hs⟩
  obtain ⟨t, mem', hexec, hexec'⟩ := exec_sameButMemory h
  exact ⟨bodyAccesses_withMemory h, t, _, hexec, hexec', rfl⟩

end Sys2Proof.Proofs
end

section
/-!
PROOFS. The addressing modes as numbers (40_engine_and_addressing.md R83 to R94): a zero-page sum is modulo 256, an indexed
one modulo 65536, and a page is crossed exactly when the low bytes carry.
-/

namespace Sys2Proof.Proofs

open Sys2Proof.Machine Sys2Proof.Laws

/-- The two bytes of memory at the addresses `low` and `high`, as the number they stand for (R34). -/
def wordAt (s : State) (low high : Nat) : Nat :=
  (s.read (BitVec.ofNat 16 low)).toNat + 256 * (s.read (BitVec.ofNat 16 high)).toNat

theorem fromBytes_read_toNat (s : State) (low high : Addr) :
    (fromBytes (s.read high) (s.read low)).toNat = wordAt s low.toNat high.toNat := by
  simp only [wordAt, BitVec.ofNat_toNat, BitVec.setWidth_eq, fromBytes_toNat]
  omega

theorem readIndirect_toNat (s : State) (p : Addr) :
    (s.readIndirect p).toNat = wordAt s p.toNat ((p.toNat + 1) % 65536) := by
  rw [State.readIndirect, fromBytes_read_toNat, indirectHigh_eq]
  rfl

theorem read16zp_toNat (s : State) (z : Byte) : (s.read16zp z).toNat = wordAt s z.toNat ((z.toNat + 1) % 256) := by
  rw [State.read16zp, fromBytes_read_toNat, zeroPageHigh_eq, zeroPage_toNat, zeroPage_toNat]
  rfl

/-- A base plus an index, with both readings of the page-crossed bit (R94). -/
theorem indexed_toNat (base : Addr) (index : Byte) :
    (indexed base index).addr.toNat = (base.toNat + index.toNat) % 65536 ∧
      ((indexed base index).crossed = true ↔ (base.toNat + index.toNat) % 65536 / 256 ≠ base.toNat / 256) ∧
      ((indexed base index).crossed = true ↔ 0xFF < base.toNat % 256 + index.toNat) := by
  have hbase := base.isLt
  have hindex := index.isLt
  have haddr : (indexed base index).addr.toNat = (base.toNat + index.toNat) % 65536 := by
    simp [indexed]
  have hcrossed : (indexed base index).crossed = true ↔
      (base.toNat + index.toNat) % 65536 / 256 ≠ base.toNat / 256 := by
    rw [← haddr]
    exact (congrArg (· = true) (hi_bne ..)).to_iff.trans decide_eq_true_iff
  exact ⟨haddr, hcrossed, by rw [hcrossed]; omega⟩

/-- Settles O11: each mode is one of the sums above, or takes its base from a pointer. -/
theorem addressingModesResolve : Obligations.AddressingModesResolve := by
  intro s b a word plain indexedBy
  have hizx : (s.read16zp (b + s.x)).toNat =
      word ((b.toNat + s.x.toNat) % 256) ((b.toNat + s.x.toNat + 1) % 256) := by
    rw [read16zp_toNat, BitVec.toNat_add, Nat.mod_add_mod]
    rfl
  have hizy : (s.read16zp b).toNat = word b.toNat ((b.toNat + 1) % 256) := read16zp_toNat s b
  refine ⟨⟨zeroPage_toNat b, rfl⟩, ⟨zeroPage_toNat (b + s.x), rfl⟩, ⟨zeroPage_toNat (b + s.y), rfl⟩, ⟨rfl, rfl⟩,
    indexed_toNat a s.x, indexed_toNat a s.y, ⟨readIndirect_toNat s a, rfl⟩, ⟨hizx, rfl⟩, ?_,
    withOffset_toNat s.pc b, rfl⟩
  exact hizy ▸ indexed_toNat (s.read16zp b) s.y

end Sys2Proof.Proofs
end

section
/-!
PROOFS. The engine and the round trips of the stack: what a fetch builds (40_engine_and_addressing.md R71, R72), the JMP to
itself on which a program ends (70_reset_and_hazards.md R232), RTS after JSR (44_branch_jump.md R159, R160) and RTI after
BRK (60_exceptions.md R206, R207).
-/

namespace Sys2Proof.Proofs

open Sys2Proof.Machine Sys2Proof.Laws

/-- Settles O19: the fetch at `PC` builds the Operation of the instruction that stands there. -/
theorem stepRunsTheDecodedInstruction : Obligations.StepRunsTheDecodedInstruction :=
  fun _ _ => step_of_standsAtPC

/-- Settles O24: no meaning reads `stall`. -/
theorem execDoesNotSeeTheStallCounter : Obligations.ExecDoesNotSeeTheStallCounter :=
  exec_ignores_stall

/-! ### What a fetch builds -/

theorem fetch_eq_none_iff (s : State) : fetch s = none ↔ decodeRecord (s.read s.pc) = none := by
  cases hd : decodeRecord (s.read s.pc) <;> simp [fetch, hd]

/-- An Operation whose unused bytes are 0x00 is that of the instruction in its matrix cell. -/
theorem toOperation_of_instr {o : Operation} {i : Instr} (hi : o.instr = some i) (h1 : i.size < 2 → o.b1 = 0x00)
    (h2 : i.size < 3 → o.b2 = 0x00) : i.toOperation = o := by
  obtain ⟨opcode, b1, b2⟩ := o
  rw [Instr.toOperation, opcode_of_instrOf hi, operand_bytes_of_instrOf hi]
  match i.size, size_le_three i, h1, h2 with
  | 0, _, h1, h2 | 1, _, h1, h2 =>
    obtain rfl : b1 = 0x00 := h1 (by decide)
    obtain rfl : b2 = 0x00 := h2 (by decide)
    rfl
  | 2, _, _, h2 =>
    obtain rfl : b2 = 0x00 := h2 (by decide)
    rfl
  | 3, _, _, _ => rfl

theorem fetch_eq_some {s : State} {o : Operation} (h : fetch s = some o) :
    o.opcode = s.read s.pc ∧ ∃ i, o.instr = some i ∧ i.toOperation = o := by
  have hd : decodeRecord (s.read s.pc) ≠ none := fun hd => by simp [(fetch_eq_none_iff s).mpr hd] at h
  obtain ⟨d, hd⟩ := Option.ne_none_iff_exists'.mp hd
  simp only [fetch, hd, Option.some.injEq] at h
  subst h
  obtain ⟨i, hi, hsize⟩ := exists_instrOf_of_record hd (if 2 ≤ d.mode.size then s.read (s.pc + 1) else 0x00)
    (if d.mode.size = 3 then s.read (s.pc + 2) else 0x00)
  refine ⟨rfl, i, hi, toOperation_of_instr hi (fun h => if_neg ?_) fun h => if_neg ?_⟩ <;> omega

/-- Settles O22: the Operation a fetch builds is that of an instruction, so it is well-formed. -/
theorem fetchBuildsAWellFormedOperation : Obligations.FetchBuildsAWellFormedOperation := by
  refine fun s => ⟨fetch_eq_none_iff s, fun o ho => ?_⟩
  obtain ⟨hopcode, i, hi, rfl⟩ := fetch_eq_some ho
  exact ⟨instr_wf i, hopcode, i, hi, rfl⟩

/-! ### JMP to itself -/

/-- What every tick keeps without a fault, a run of any length keeps without a fault. -/
theorem runs_of_step_keeps {p : State → Prop} (hstep : ∀ s, p s → ∃ t, step s = .next t ∧ p t) (k : Nat) {s : State}
    (hs : p s) : ∃ t, RunsTo k s t ∧ p t := by
  induction k generalizing s with
  | zero => exact ⟨s, rfl, hs⟩
  | succ k ih =>
    obtain ⟨u, hu, hpu⟩ := hstep s hs
    obtain ⟨t, ht, hpt⟩ := ih hpu
    exact ⟨t, (run_succ hu k).trans ht, hpt⟩

theorem neverFaults_of_runs {s : State} (h : ∀ k, ∃ t, RunsTo k s t) : NeverFaults s := by
  intro k f hf
  obtain ⟨t, ht⟩ := h k
  cases ht.symm.trans hf

/-- One tick at a JMP to itself moves `stall` only: it counts down, or the JMP loads it and puts `PC` where it was. -/
theorem step_at_jump_to_itself {stop : Addr} {s u : State} (hs : Complete stop s) (hi : StandsAtPC (.jmpAbs stop) s)
    (hu : SameButStall s u) : ∃ t, step u = .next t ∧ SameButStall s t := by
  by_cases hstall : u.stall = 0
  · obtain rfl : s = u := by
      calc s = { s with stall := 0 } := by rw [← hs.1]
        _ = { u with stall := 0 } := hu
        _ = u := by rw [← hstall]
    refine ⟨{ s with pc := stop, stall := 2 }, step_of_standsAtPC hs.1 hi, ?_⟩
    rw [SameButStall, ← hs.2]
  · exact ⟨_, step_stalled (Nat.pos_of_ne_zero hstall), hu⟩

/-- Settles O26: being equal to the Ready state but for `stall` is kept by every tick. -/
theorem jumpToItselfMovesOnlyStall : Obligations.JumpToItselfMovesOnlyStall := by
  intro stop s hs hi
  have hruns (k : Nat) := runs_of_step_keeps (p := SameButStall s) (fun _ => step_at_jump_to_itself hs hi) k rfl
  exact ⟨neverFaults_of_runs fun k => (hruns k).imp fun _ => And.left, hruns⟩

/-! ### Returning -/

/-- Settles O45: the pulled address is the pushed one, that of the last byte of the JSR. -/
theorem rtsReturnsAfterJsr : Obligations.RtsReturnsAfterJsr := by
  intro s t u a hjsr hsp hkept
  obtain ⟨t', ht', hregisters, hstack⟩ := jsrPushesItsLastByteAddress.2 s a
  cases hjsr.symm.trans ht'
  simp only [ofNat_stackAddr] at hstack
  have hsp : u.sp = s.sp - 2 := by rw [hsp, hregisters]
  have hhigh : u.read (stackAddr s.sp) = hi (s.pc + 2) := by
    simpa [hstack] using hkept 0 (by decide)
  have hlow : u.read (stackAddr (s.sp - 1)) = lo (s.pc + 2) := by
    simpa [hstack, stackAddr_sub_one_ne] using hkept 1 (by decide)
  have h2 : s.sp - 2 + 2 = s.sp := by bv_omega
  have h1 : s.sp - 2 + 1 = s.sp - 1 := by bv_omega
  have hpc : s.pc + 2 + 1 = s.pc + 3 := by bv_omega
  rw [exec_rts, hsp, h2, h1, hhigh, hlow, fromBytes_hi_lo, hpc]

/-- Settles O52: the pulled status byte and address are the pushed ones. -/
theorem rtiReturnsFromBrk : Obligations.RtiReturnsFromBrk := by
  intro s t u hbrk hsp hkept
  obtain ⟨t', ht', hregisters, hstack⟩ := brkTakesTheTrap.2 s
  cases hbrk.symm.trans ht'
  simp only [ofNat_stackAddr, ← pushedStatus_eq] at hstack
  have hsp : u.sp = s.sp - 3 := by rw [hsp, hregisters]
  have h20 : s.sp - 2 ≠ s.sp := by bv_omega
  have h21 : s.sp - 2 ≠ s.sp - 1 := by bv_omega
  have hhigh : u.read (stackAddr s.sp) = hi (s.pc + 2) := by
    simpa [hstack] using hkept 0 (by decide)
  have hlow : u.read (stackAddr (s.sp - 1)) = lo (s.pc + 2) := by
    simpa [hstack, stackAddr_sub_one_ne] using hkept 1 (by decide)
  have hstatus : u.read (stackAddr (s.sp - 2)) = s.pushedStatus := by
    simpa [hstack, h20, h21] using hkept 2 (by decide)
  have h3 : s.sp - 3 + 3 = s.sp := by bv_omega
  have h2 : s.sp - 3 + 2 = s.sp - 1 := by bv_omega
  have h1 : s.sp - 3 + 1 = s.sp - 2 := by bv_omega
  rw [exec_rti, hsp, h3, h2, h1, hhigh, hlow, hstatus, fromBytes_hi_lo, setP_pushedStatus]

end Sys2Proof.Proofs
end

section
/-!
PROOFS. Which flags an instruction writes (10_state.md R17 to R23), and that `D` and `I` change nothing but what is pushed
of them (R20, R21; 42_arithmetic.md R132).
-/

namespace Sys2Proof.Proofs

open Sys2Proof.Machine Sys2Proof.Laws

/-! ### The writers of each flag -/

/-- From `s` to `t`, `i` writes no flag but those whose list of writers names it (R17 to R23). -/
def WritesListedFlags (i : Instr) (s t : State) : Prop :=
  (i.mnemonic ∉ [.lda, .ldx, .ldy, .tax, .tay, .tsx, .txa, .tya, .pla, .adc, .sbc, .cmp, .cpx, .cpy, .inc, .inx, .iny,
      .dec, .dex, .dey, .and, .ora, .eor, .asl, .lsr, .rol, .ror, .bit, .plp, .rti] → t.n = s.n ∧ t.z = s.z) ∧
    (i.mnemonic ∉ [.adc, .sbc, .bit, .clv, .plp, .rti] → t.v = s.v) ∧
    (i.mnemonic ≠ .brk → t.b = s.b) ∧
    (i.mnemonic ∉ [.sed, .cld, .plp, .rti] → t.d = s.d) ∧
    (i.mnemonic ∉ [.sei, .brk, .cli, .plp, .rti] → t.i = s.i) ∧
    (i.mnemonic ∉ [.adc, .sbc, .cmp, .cpx, .cpy, .asl, .rol, .lsr, .ror, .sec, .clc, .plp, .rti] → t.c = s.c)

/-- Every instruction by the flags it writes. -/
theorem exec_writesListedFlags (i : Instr) (s : State) : ∃ t, exec i s = .next t ∧ WritesListedFlags i s t := by
  cases i
  -- `N`, `Z`, `V` and `C`
  case adcImm | adcZp | adcZpx | adcAbs | adcAbx | adcAby | adcIzx | adcIzy | sbcImm | sbcZp | sbcZpx | sbcAbs |
      sbcAbx | sbcAby | sbcIzx | sbcIzy =>
    exact ⟨_, rfl, absurd (by simp [Instr.mnemonic]), absurd (by simp [Instr.mnemonic]), fun _ => rfl, fun _ => rfl,
      fun _ => rfl, absurd (by simp [Instr.mnemonic])⟩
  -- `N`, `Z` and `V`
  case bitZp | bitAbs =>
    exact ⟨_, rfl, absurd (by simp [Instr.mnemonic]), absurd (by simp [Instr.mnemonic]), fun _ => rfl, fun _ => rfl,
      fun _ => rfl, fun _ => rfl⟩
  -- `N`, `Z` and `C`
  case cmpImm | cmpZp | cmpZpx | cmpAbs | cmpAbx | cmpAby | cmpIzx | cmpIzy | cpxImm | cpxZp | cpxAbs | cpyImm |
      cpyZp | cpyAbs | aslAcc | aslZp | aslZpx | aslAbs | aslAbx | lsrAcc | lsrZp | lsrZpx | lsrAbs | lsrAbx |
      rolAcc | rolZp | rolZpx | rolAbs | rolAbx | rorAcc | rorZp | rorZpx | rorAbs | rorAbx =>
    exact ⟨_, rfl, absurd (by simp [Instr.mnemonic]), fun _ => rfl, fun _ => rfl, fun _ => rfl, fun _ => rfl,
      absurd (by simp [Instr.mnemonic])⟩
  -- all but `B`
  case plp | rti =>
    exact ⟨_, rfl, absurd (by simp [Instr.mnemonic]), absurd (by simp [Instr.mnemonic]), fun _ => rfl,
      absurd (by simp [Instr.mnemonic]), absurd (by simp [Instr.mnemonic]), absurd (by simp [Instr.mnemonic])⟩
  -- `B` and `I`
  case brk =>
    exact ⟨_, rfl, fun _ => ⟨rfl, rfl⟩, fun _ => rfl, absurd rfl, fun _ => rfl, absurd (by simp [Instr.mnemonic]),
      fun _ => rfl⟩
  -- one flag
  case clv =>
    exact ⟨_, rfl, fun _ => ⟨rfl, rfl⟩, absurd (by simp [Instr.mnemonic]), fun _ => rfl, fun _ => rfl, fun _ => rfl,
      fun _ => rfl⟩
  case cld | sed =>
    exact ⟨_, rfl, fun _ => ⟨rfl, rfl⟩, fun _ => rfl, fun _ => rfl, absurd (by simp [Instr.mnemonic]), fun _ => rfl,
      fun _ => rfl⟩
  case cli | sei =>
    exact ⟨_, rfl, fun _ => ⟨rfl, rfl⟩, fun _ => rfl, fun _ => rfl, fun _ => rfl, absurd (by simp [Instr.mnemonic]),
      fun _ => rfl⟩
  case clc | sec =>
    exact ⟨_, rfl, fun _ => ⟨rfl, rfl⟩, fun _ => rfl, fun _ => rfl, fun _ => rfl, fun _ => rfl,
      absurd (by simp [Instr.mnemonic])⟩
  -- no flag
  case staZp | staZpx | staAbs | staAbx | staAby | staIzx | staIzy | stxZp | stxZpy | stxAbs | styZp | styZpx | styAbs |
      txs | jmpAbs | jmpInd | jsr | rts | pha | php | nop =>
    exact ⟨_, rfl, fun _ => ⟨rfl, rfl⟩, fun _ => rfl, fun _ => rfl, fun _ => rfl, fun _ => rfl, fun _ => rfl⟩
  case bcc | bcs | beq | bmi | bne | bpl | bvc | bvs =>
    refine ⟨_, branch_next .., ?_⟩
    split <;> exact ⟨fun _ => ⟨rfl, rfl⟩, fun _ => rfl, fun _ => rfl, fun _ => rfl, fun _ => rfl, fun _ => rfl⟩
  -- `N` and `Z`: loads, transfers, logic, increments and decrements, PLA
  all_goals
    exact ⟨_, rfl, absurd (by simp [Instr.mnemonic]), fun _ => rfl, fun _ => rfl, fun _ => rfl, fun _ => rfl,
      fun _ => rfl⟩

/-- Settles O53: every instruction stands under the flags it writes. -/
theorem onlyTheListedInstructionsWriteEachFlag : Obligations.OnlyTheListedInstructionsWriteEachFlag :=
  exec_writesListedFlags

/-! ### `D` and `I` -/

/-- The state with `d` in `D` and `f` in `I`. -/
def withInert (s : State) (d f : Bool) : State := { s with d := d, i := f }

/-- `i` answers the same next state but for `D` and `I`, whatever they held, and leaves in them `d` and `f`, or, where it
writes one of them, what it writes there in any case. -/
def CarriesInert (i : Instr) (s : State) (d f : Bool) : Prop :=
  ∃ t, exec i s = .next t ∧
    exec i (withInert s d f) = .next (withInert t (if i.mnemonic ∈ [.sed, .cld, .plp, .rti] then t.d else d)
      (if i.mnemonic ∈ [.sei, .cli, .plp, .rti] then t.i else f))

/-- The branch handler looks at its condition only. -/
theorem branch_withInert (t : Timing) (cond : Bool) (off : Byte) (s : State) (d f : Bool) :
    ∃ u, branch t cond off s = .next u ∧ branch t cond off (withInert s d f) = .next (withInert u d f) := by
  cases cond <;> exact ⟨_, rfl, rfl⟩

/-- PHP and BRK alone look at `D` and `I`, to push them (R20, R21): of every other instruction the two next states agree
field by field. -/
theorem exec_carriesInert {i : Instr} (hi : i.mnemonic ∉ [.php, .brk]) (s : State) (d f : Bool) : CarriesInert i s d f := by
  cases i
  case php | brk => simp [Instr.mnemonic] at hi
  case bcc | bcs | beq | bmi | bne | bpl | bvc | bvs =>
    exact branch_withInert ..
  all_goals exact ⟨_, rfl, rfl⟩

/-- Settles O57: what an instruction leaves in `D` and `I` is what it writes there, or what they held. -/
theorem decimalAndInterruptFlagsAreInert : Obligations.DecimalAndInterruptFlagsAreInert := by
  intro i s d' i' hi
  obtain ⟨t, hexec, hexec'⟩ := exec_carriesInert hi s d' i'
  exact ⟨t, hexec, _, hexec', rfl, fun h => if_neg h, fun h => if_neg h, fun h => if_pos h, fun h => if_pos h⟩

end Sys2Proof.Proofs
end
